-- ==== Sys2Proof/Word.lean ====
section
/-!
DEFINITION. The block's one word type (spec/00_scope.md R9, R12, R15): an unsigned 32-bit word, bit 0 the
least significant.
-/

namespace Sys2Proof

/-- A data word, a command word or a bus address: 32 bits each (00_scope.md R9). -/
abbrev Word := BitVec 32

end Sys2Proof
end

