-- ==== Sys2Proof/Config.lean ====
section
/-!
DEFINITION. What an implementation fixes and what the environment leaves free: the bus port's requests and
answers (spec/20_memory.md R60), the parameters (00_scope.md R10), the free bus draws (20_memory.md R66) and
the flash-algorithm constants (20_memory.md R73), which the block never reads.
-/

namespace Sys2Proof

/-- The transport's error, `TransportError` of 00_scope.md R10: an opaque token that the block forwards
unchanged and never looks into (60_exceptions.md R201). The number only tells tokens apart. DESIGN CHOICE,
safe: log 10. -/
structure TransportError where
  token : Nat
deriving DecidableEq, Repr

/-- A request on the bus port: `read32(address)` or `write32(address, value)` (20_memory.md R60). Every
request is a full word (00_scope.md R15). -/
inductive BusRequest where
  | read (addr : Word)
  | write (addr value : Word)
deriving DecidableEq, Repr

/-- An answer on the bus port (20_memory.md R60): `Ok(word)` to a read, `Ok` to a write (its word is then not
looked at), or `Err(e)` to either. -/
inductive BusAnswer where
  | ok (w : Word)
  | err (e : TransportError)
deriving DecidableEq, Repr

/-- One bus transaction: a request and its answer (00_scope.md R8). -/
structure BusTransaction where
  request : BusRequest
  answer : BusAnswer
deriving DecidableEq, Repr

/-- The named parameters of 00_scope.md R10 (but the opaque type `TransportError`). -/
structure Params where
  /-- `P_POLL_LIMIT`: the most status reads one poll makes. -/
  pollLimit : Nat
  /-- `P_POLL_DELAY`: timing only; no rule reads it (R10), so no definition of the model does. -/
  pollDelay : Nat
  /-- `P_BP_SOURCE_COMPAT`: reproduce the source's breakpoint words (92_eei_decisions.md D10). -/
  bpSourceCompat : Bool
  /-- `P_UNSUPPORTED_FATAL`: ENBP and DISBP end in FATAL (92_eei_decisions.md D11). -/
  unsupportedFatal : Bool
deriving DecidableEq, Repr

/-- FREE VALUE. What the environment answers to the `n`-th request it is asked, `none` if it never answers
that request: 20_memory.md R66, "a model takes each answer as a draw from the environment". It has no body:
no proof can see what it is. Log 3. -/
opaque Config.busDraw : Nat → BusRequest → Option BusAnswer

/-- The flash-algorithm layout of target RAM, 20_memory.md R73. Transcribed so that the address map is
complete; "the block reads none of it". -/
structure FlashLayout where
  blobWords : Nat
  load : Word
  entryInit : Word
  entryUninit : Word
  entryProgramPage : Word
  entryEraseSector : Word
  entryEraseAll : Word
  staticBase : Word
  stackTop : Word
  beginData : Word
  pageBuffers : List Word
  minProgramLength : Nat
  analyzerBase : Word
deriving DecidableEq, Repr

/-- The values of 20_memory.md R73 (for the open questions they raise: 90_conflicts.md C6 to C8). -/
def Config.flashLayout : FlashLayout where
  blobWords := 87
  load := 0x20000000#32
  entryInit := 0x47#32
  entryUninit := 0x75#32
  entryProgramPage := 0xFB#32
  entryEraseSector := 0xAF#32
  entryEraseAll := 0x83#32
  staticBase := 0x2000016C#32
  stackTop := 0x20000800#32
  beginData := 0x20002000#32
  pageBuffers := [0x20003000#32, 0x20004000#32]
  minProgramLength := 2
  analyzerBase := 0x20002000#32

/-- The alignment invariant of 20_memory.md R74, over the addresses 90_conflicts.md C6 restricts it to. -/
def FlashLayout.aligned (f : FlashLayout) : Bool :=
  ([f.load, f.staticBase, f.stackTop, f.beginData, f.analyzerBase] ++ f.pageBuffers).all
    fun a => a.toNat % 4 == 0

end Sys2Proof
end

