-- ==== Sys2Proof/Machine/Codec.lean ====
section
/-!
DEFINITION. The Register Codec (spec/40_codec.md): fields, getters, setters and the words built from them, and
the addresses of the five debug registers (20_memory.md R72). It has no state and is total (R127).
-/

namespace Sys2Proof.Machine

/-- A register field: bits `hi` down to `lo` (40_codec.md R111). -/
structure RegField where
  hi : Nat
  lo : Nat
deriving DecidableEq, Repr

/-- `width = hi - lo + 1` (40_codec.md R111). -/
def RegField.width (f : RegField) : Nat := f.hi - f.lo + 1

/-- `M = ((2^width - 1) << lo)` (40_codec.md R111). -/
def RegField.mask (f : RegField) : Word := BitVec.ofNat 32 (2 ^ f.width - 1) <<< f.lo

/-- `get_f(w) = (w & M) >> lo` (40_codec.md R111). -/
def RegField.get (f : RegField) (w : Word) : Word := (w &&& f.mask) >>> f.lo

/-- `set_f(w, v) = (w & ~M) | ((v << lo) & M)` (40_codec.md R111). -/
def RegField.set (f : RegField) (w v : Word) : Word := (w &&& ~~~f.mask) ||| ((v <<< f.lo) &&& f.mask)

/-- A flag as a word: 1 or 0. -/
def bit (b : Bool) : Word := if b then 1#32 else 0#32

/-! The five debug registers' addresses, 20_memory.md R72. -/

/-- Status/Control (DHCSR). -/
def dhcsrAddr : Word := 0xE000EDF0#32
/-- Register-Select (DCRSR). -/
def dcrsrAddr : Word := 0xE000EDF4#32
/-- Register-Data (DCRDR). -/
def dcrdrAddr : Word := 0xE000EDF8#32
/-- Breakpoint Control (BP_CTRL). -/
def bpCtrlAddr : Word := 0xE0002000#32
/-- Breakpoint Comparator (BP_COMP). -/
def bpCompAddr : Word := 0xE0002008#32

/-! The Status/Control Register: fields of 10_state.md R26 and R27. PRESUMED positions (the spec's own general
knowledge): log 11. -/

def fieldSResetSt : RegField := ⟨25, 25⟩
def fieldSRetireSt : RegField := ⟨24, 24⟩
def fieldSLockup : RegField := ⟨19, 19⟩
def fieldSSleep : RegField := ⟨18, 18⟩
def fieldSHalt : RegField := ⟨17, 17⟩
def fieldSRegrdy : RegField := ⟨16, 16⟩
def fieldCMaskints : RegField := ⟨3, 3⟩
def fieldCStep : RegField := ⟨2, 2⟩
def fieldCHalt : RegField := ⟨1, 1⟩
def fieldCDebugen : RegField := ⟨0, 0⟩
def fieldDbgkey : RegField := ⟨31, 16⟩

/-- DHCSR decode (40_codec.md R112): the six status flags, the four control bits and the key. -/
def sResetSt (w : Word) : Word := fieldSResetSt.get w
@[inherit_doc sResetSt] def sRetireSt (w : Word) : Word := fieldSRetireSt.get w
@[inherit_doc sResetSt] def sLockup (w : Word) : Word := fieldSLockup.get w
@[inherit_doc sResetSt] def sSleep (w : Word) : Word := fieldSSleep.get w
@[inherit_doc sResetSt] def sHalt (w : Word) : Word := fieldSHalt.get w
@[inherit_doc sResetSt] def sRegrdy (w : Word) : Word := fieldSRegrdy.get w
@[inherit_doc sResetSt] def cMaskints (w : Word) : Word := fieldCMaskints.get w
@[inherit_doc sResetSt] def cStep (w : Word) : Word := fieldCStep.get w
@[inherit_doc sResetSt] def cHalt (w : Word) : Word := fieldCHalt.get w
@[inherit_doc sResetSt] def cDebugen (w : Word) : Word := fieldCDebugen.get w
@[inherit_doc sResetSt] def dbgkey (w : Word) : Word := fieldDbgkey.get w

/-- The setters of the write view (40_codec.md R113). -/
def setCMaskints (w v : Word) : Word := fieldCMaskints.set w v
@[inherit_doc setCMaskints] def setCStep (w v : Word) : Word := fieldCStep.set w v
@[inherit_doc setCMaskints] def setCHalt (w v : Word) : Word := fieldCHalt.set w v
@[inherit_doc setCMaskints] def setCDebugen (w v : Word) : Word := fieldCDebugen.set w v

/-- The unlock key, `0xA05F` (10_state.md R27). -/
def unlockKey : Word := 0xA05F#32

/-- `enable_write(w) = w | 0xA05F_0000` (40_codec.md R114). -/
def enableWrite (w : Word) : Word := w ||| 0xA05F0000#32

/-- `dhcsr_ctrl` (40_codec.md R113): built from the base word 0 by the setters, then `enable_write`. -/
def dhcsrCtrl (maskints step halt debugen : Bool) : Word :=
  enableWrite (setCDebugen (setCHalt (setCStep (setCMaskints 0#32 (bit maskints)) (bit step)) (bit halt)) (bit debugen))

/-- A Status/Control write changes the target's control state only with the key in its own bits 31:16
(10_state.md R29). -/
def dhcsrUnlocked (w : Word) : Bool := dbgkey w == unlockKey

/-! The Register-Select and Register-Data Registers: 10_state.md R30, R31. -/

def fieldRegwnr : RegField := ⟨16, 16⟩
def fieldRegsel : RegField := ⟨4, 0⟩

/-- DCRSR decode (40_codec.md R117). -/
def regwnr (w : Word) : Word := fieldRegwnr.get w
@[inherit_doc regwnr] def regsel (w : Word) : BitVec 5 := (fieldRegsel.get w).setWidth 5

/-- `dcrsr(wnr, sel) = zext_32(wnr) << 16 | zext_32(sel[4:0])` (40_codec.md R116). -/
def dcrsr (wnr : Bool) (sel : BitVec 5) : Word := bit wnr <<< 16 ||| sel.setWidth 32

/-- The Register-Data word is its own value (40_codec.md R118). -/
def dcrdrValue (w : Word) : Word := w
@[inherit_doc dcrdrValue] def dcrdrWord (v : Word) : Word := v

/-! The Breakpoint Control Register: 10_state.md R32. -/

def fieldNumCode : RegField := ⟨7, 4⟩
def fieldKey : RegField := ⟨1, 1⟩
def fieldBpEnable : RegField := ⟨0, 0⟩

/-- BP_CTRL decode (40_codec.md R119), each field zero-extended to a word. -/
def numCode (w : Word) : Word := fieldNumCode.get w
@[inherit_doc numCode] def bpKey (w : Word) : Word := fieldKey.get w
@[inherit_doc numCode] def bpEnable (w : Word) : Word := fieldBpEnable.get w

/-- The setter of NUM_CODE, which no command uses (40_codec.md R120). -/
def setNumCode (w v : Word) : Word := fieldNumCode.set w v

/-- `bp_ctrl(key, enable) = zext_32(key) << 1 | zext_32(enable)` (40_codec.md R120). -/
def bpCtrl (key enable : Bool) : Word := bit key <<< 1 ||| bit enable

/-- A Breakpoint Control write changes the target's enable only if KEY of the same write is 1
(10_state.md R33). -/
def bpCtrlUnlocked (w : Word) : Bool := bpKey w == 1#32

/-! The Breakpoint Comparator Register: 10_state.md R34 to R36. -/

def fieldBpMatch : RegField := ⟨31, 30⟩
def fieldComp : RegField := ⟨28, 2⟩
def fieldCompEnable : RegField := ⟨0, 0⟩

/-- BP_COMP decode (40_codec.md R121). -/
def bpMatch (w : Word) : Word := fieldBpMatch.get w
@[inherit_doc bpMatch] def comp (w : Word) : Word := fieldComp.get w
@[inherit_doc bpMatch] def compEnable (w : Word) : Word := fieldCompEnable.get w

/-- `match_address(w) = zext_32(comp(w)) << 2` (40_codec.md R121; 10_state.md R36). -/
def matchAddress (w : Word) : Word := comp w <<< 2

/-- The match modes of 10_state.md R35. PRESUMED values of the first three: log 11. -/
inductive MatchMode where
  | none | lower | upper | both
deriving DecidableEq, Repr

/-- The BP_MATCH value of a mode (10_state.md R35). -/
def MatchMode.value : MatchMode → Word
  | .none => 0b00#32
  | .lower => 0b01#32
  | .upper => 0b10#32
  | .both => 0b11#32

/-- The setters of BP_COMP (40_codec.md R122). -/
def setBpMatch (w v : Word) : Word := fieldBpMatch.set w v
@[inherit_doc setBpMatch] def setComp (w v : Word) : Word := fieldComp.set w v
@[inherit_doc setBpMatch] def setCompEnable (w v : Word) : Word := fieldCompEnable.set w v

/-- `bp_comp(mode, c, en)` (40_codec.md R122): built from 0 with the three setters; the setters cut `mode` to
2 bits and `c` to 27. -/
def bpComp (mode c : Word) (en : Bool) : Word :=
  setCompEnable (setComp (setBpMatch 0#32 mode) c) (bit en)

/-- `comp_arch(a)` (40_codec.md R124): the register semantics, bits 28:2 of the address. -/
def compArch (a : Word) : Word := (a >>> 2) &&& 0x07FFFFFF#32

/-- `comp_compat(a)` (40_codec.md R125): the source's expression, cut to the field. -/
def compCompat (a : Word) : Word := ((a >>> 2) ||| 0x00FFFFFF#32) &&& 0x07FFFFFF#32

/-- `setbp_word(a)` under `P_BP_SOURCE_COMPAT` = `compat` (40_codec.md R123). -/
def setbpWord (compat : Bool) (a : Word) : Word :=
  bpComp MatchMode.both.value (if compat then compCompat a else compArch a) true

end Sys2Proof.Machine
end

