-- ==== Sys2Proof/Machine/Flags.lean ====
section
/-!
DEFINITION. The flags the block reads (spec/10_state.md R40), the response status codes (R24), and the target
core's logical states as the block derives them (42_exec_control.md R160).
-/

namespace Sys2Proof.Machine

/-- A status bit that a poll tests (41_core_reg_transfer.md R140, R141). -/
inductive StatusBit where
  /-- S_REGRDY, bit 16: `poll_regrdy` = `poll(16)`. -/
  | regrdy
  /-- S_HALT, bit 17: `poll_halt` = `poll(17)`. -/
  | halt
deriving DecidableEq, Repr

/-- `w[b] == 1` of the poll's loop; every other bit of `w` is ignored (41_core_reg_transfer.md R140). -/
def StatusBit.test : StatusBit → Word → Bool
  | .regrdy, w => sRegrdy w == 1#32
  | .halt, w => sHalt w == 1#32

/-- The statuses of 10_state.md R24. -/
inductive Status where
  | ok | timeout | transport | unsupported | illegal
deriving DecidableEq, Repr

/-- The 3-bit code of a status (10_state.md R24); codes 5 to 7 are never produced. -/
def Status.code : Status → BitVec 3
  | .ok => 0#3
  | .timeout => 1#3
  | .transport => 2#3
  | .unsupported => 3#3
  | .illegal => 4#3

/-- The three logical states of the target core (00_scope.md R17, 42_exec_control.md R160). No register holds
one. -/
inductive CoreState where
  | running | halted | stepping
deriving DecidableEq, Repr

/-- The logical state that a Status/Control word `w` shows, given whether a STEP has made its Status/Control
write and its `poll_halt` has not yet seen S_HALT (42_exec_control.md R160; for the rest of a STEP: log 13). -/
def coreStateOf (stepInProgress : Bool) (w : Word) : CoreState :=
  if sHalt w == 1#32 then .halted else if stepInProgress then .stepping else .running

end Sys2Proof.Machine
end

