-- ==== Sys2Proof/Machine/Operands.lean ====
section
/-!
DEFINITION. The core registers an operand may name (spec/10_state.md R37 to R39) and the basic register set.
-/

namespace Sys2Proof.Machine

/-- The target's core registers by the name of 10_state.md R37. -/
inductive CoreReg where
  | r (n : Fin 13)
  | sp | lr | pc | xpsr | msp | psp
  /-- CONTROL in bits 31:24 and PRIMASK in bits 7:0. -/
  | controlPrimask
  | reserved
deriving DecidableEq, Repr

/-- The core register an index names (10_state.md R37). PRESUMED numbering: log 11. The index itself is sent to
the target unchanged, a reserved one too (41_core_reg_transfer.md R143). -/
def coreRegOfIndex (i : BitVec 5) : CoreReg :=
  if h : i.toNat < 13 then .r ⟨i.toNat, h⟩
  else if i = 13#5 then .sp
  else if i = 14#5 then .lr
  else if i = 15#5 then .pc
  else if i = 16#5 then .xpsr
  else if i = 17#5 then .msp
  else if i = 18#5 then .psp
  else if i = 20#5 then .controlPrimask
  else .reserved

/-- CONTROL within core register 20 (10_state.md R37). -/
def fieldControl : RegField := ⟨31, 24⟩
/-- PRIMASK within core register 20 (10_state.md R37). -/
def fieldPrimask : RegField := ⟨7, 0⟩

/-- The index of the PC, which HALT and STEP read (42_exec_control.md R163, R165). -/
def pcIndex : BitVec 5 := 15#5

/-- The table of BASICREG (41_core_reg_transfer.md R145): R0, R1, R2, R3, R9, PC, LR, SP. -/
def basicRegTable : List Word := [0#32, 1#32, 2#32, 3#32, 9#32, 15#32, 14#32, 13#32]

/-- `table[SEL]` (41_core_reg_transfer.md R145); every value of the 3-bit SEL is defined. -/
def basicReg (sel : BitVec 3) : Word := basicRegTable[sel.toNat]'(sel.isLt)

end Sys2Proof.Machine
end

