-- ==== Sys2Proof/Machine/Params.lean ====
section
/-!
DEFINITION. This hardware's parameter values (spec/00_scope.md R10).
-/

namespace Sys2Proof.Machine

/-- "value for this hardware" of 00_scope.md R10: limit 100, delay 0, both flags false. -/
def hardwareParams : Params where
  pollLimit := 100
  pollDelay := 0
  bpSourceCompat := false
  unsupportedFatal := false

end Sys2Proof.Machine
end

