-- ==== Sys2Proof/Syntax.lean ====
section
/-!
DEFINITION. The commands: one constructor of `Instr` per row of spec/opcode_table.json (30_encoding.md R94),
the command pair the port carries (R90), and the assembly lines of R99.
-/

namespace Sys2Proof

/-- A decoded command with the operands its rule uses. Every operand has exactly the width of its field
(30_encoding.md R93: "a register index therefore always fits"), so every value of this type is well formed. -/
inductive Instr where
  /-- RDREG rN: read core register (41_core_reg_transfer.md R143). -/
  | rdreg (reg : BitVec 5)
  /-- WRREG rN, #v: write core register (R144). -/
  | wrreg (reg : BitVec 5) (value : Word)
  /-- HALT: halt the core and return its PC (42_exec_control.md R163). -/
  | halt
  /-- RUN: let the core run (R164). -/
  | run
  /-- STEP: single-step one instruction and return the PC (R165). -/
  | step
  /-- WAITH: wait for core halted (R162). -/
  | waith
  /-- BPUNITS: number of breakpoint comparators (43_breakpoint.md R180). -/
  | bpunits
  /-- BPEN #e: globally enable or disable the breakpoint unit (R182). -/
  | bpen (enable : Bool)
  /-- SETBP #a: set an address breakpoint (R183). -/
  | setbp (address : Word)
  /-- ENBP #a: per-breakpoint enable, unsupported (R185). -/
  | enbp (address : Word)
  /-- DISBP #a: per-breakpoint disable, unsupported (R185). -/
  | disbp (address : Word)
  /-- BASICREG #s: basic register address (41_core_reg_transfer.md R145). -/
  | basicreg (sel : BitVec 3)
deriving DecidableEq, Repr

/-- What the command port carries: the command word and the argument word (30_encoding.md R90). -/
structure Command where
  cmd : Word
  arg : Word
deriving DecidableEq, Repr

/-- The twelve opcodes of 30_encoding.md R94, in the table's order. -/
inductive Opcode where
  | rdreg | wrreg | halt | run | step | waith | bpunits | bpen | setbp | enbp | disbp | basicreg
deriving DecidableEq, Repr

/-- An assembly line of 30_encoding.md R99, with its operands as the numbers that are written. -/
inductive Asm where
  | rdreg (n : Nat)
  | wrreg (n v : Nat)
  | halt
  | run
  | step
  | waith
  | bpunits
  | bpen (e : Nat)
  | setbp (a : Nat)
  | enbp (a : Nat)
  | disbp (a : Nat)
  | basicreg (s : Nat)
deriving DecidableEq, Repr

/-- The register number that an assembly line's `sp` stands for (R99). -/
def Asm.sp : Nat := 13
/-- The register number that an assembly line's `lr` stands for (R99). -/
def Asm.lr : Nat := 14
/-- The register number that an assembly line's `pc` stands for (R99). -/
def Asm.pc : Nat := 15

end Sys2Proof
end

