-- ==== Sys2Proof/Machine/State.lean ====
section
/-!
DEFINITION. The machine's state as plain data: the block's registers (spec/10_state.md R20), its ports, the
environment behind them, and the reset state (R43).
-/

namespace Sys2Proof.Machine

/-- `phase` of 10_state.md R20. -/
inductive Phase where
  /-- Ready for a command. -/
  | idle
  /-- Running a command. -/
  | busy
  /-- Stopped for good, until reset (43_breakpoint.md R186). -/
  | fatal
deriving DecidableEq, Repr

/-- The state of the reference target RT, 20_memory.md R76: the spec's own fixture for test vectors, not a
claim about silicon. -/
structure RefTarget where
  halted : Bool
  debugen : Bool
  maskints : Bool
  /-- `core[0..31]`; `core[15]` is the PC. -/
  core : Vector Word 32
  dcrdr : Word
  /-- The register a write-direction select has named and that waits for its data word. -/
  pend : Option (BitVec 5)
  regrdy : Bool
  bpEn : Bool
  /-- The last word written to `0xE000_2000`. -/
  bpCtrlLast : Word
  bpComp : Word
  numCode : BitVec 4
deriving DecidableEq, Repr

/-- What is behind the bus port: where the next answer comes from (20_memory.md R66). Log 3. -/
inductive Bus where
  /-- The environment's free draws: the next request gets the draw numbered `next` of `Config.busDraw`. -/
  | free (next : Nat)
  /-- Answers given as data, the first for the next request; an empty list is a bus that does not answer. -/
  | script (answers : List BusAnswer)
  /-- The reference target RT of 20_memory.md R76 to R78. -/
  | reference (target : RefTarget)
  /-- The host has given the answer to the request in flight (60_exceptions.md R217); `rest` answers the requests
  after it. -/
  | given (answer : BusAnswer) (rest : Bus)
deriving DecidableEq, Repr

/-- The state. The first ten fields are the tuple of 10_state.md R20; `outstanding` is the request in flight
(20_memory.md R68); the rest is the model's own: configuration and the environment's side of the ports. -/
structure State where
  phase : Phase
  /-- The command word latched at acceptance. -/
  cmd : Word
  /-- The argument word latched at acceptance. -/
  arg : Word
  /-- The position reached in the running command's pseudocode (10_state.md R21). -/
  mu : Nat
  /-- `poll_count`: status reads made by the poll now running (41_core_reg_transfer.md R140). -/
  pollCount : Nat
  /-- A word read earlier in the same command and used later in it (43_breakpoint.md R180). -/
  latch : Word
  /-- `resp_valid`: a response is held. -/
  respValid : Bool
  /-- `resp_status`: the 3-bit status code of the last completed command (10_state.md R24). -/
  respStatus : BitVec 3
  /-- `resp_data`. -/
  respData : Word
  /-- `resp_err`: the forwarded transport error. -/
  respErr : Option TransportError
  /-- The bus request issued and not yet answered (20_memory.md R68, 70_reset_and_hazards.md R230, R246).
  Log 4. -/
  outstanding : Option BusRequest
  /-- The parameters of 00_scope.md R10: configuration; no step changes it. Log 2. -/
  params : Params
  /-- The command the host presents, if it presents one: the port carries one pair (30_encoding.md R90, R91;
  decision D2). Log 6. -/
  cmdPort : Option Command
  /-- The reset input: the next step resets the block (60_exceptions.md R217). Log 7. -/
  resetReq : Bool
  /-- The environment behind the bus port. Log 3. -/
  bus : Bus
  /-- The bus transactions made so far, oldest first. Log 5. -/
  trace : List BusTransaction
deriving DecidableEq, Repr

/-- The machine right after reset: the block's registers as 10_state.md R43 says, this hardware's parameters,
nothing outstanding, no command presented, and a bus whose answers are the environment's draws. -/
def State.reset : State where
  phase := .idle
  cmd := 0#32
  arg := 0#32
  mu := 0
  pollCount := 0
  latch := 0#32
  respValid := false
  respStatus := 0#3
  respData := 0#32
  respErr := none
  outstanding := none
  params := hardwareParams
  cmdPort := none
  resetReq := false
  bus := .free 0
  trace := []

/-- The reasons a step may stop. The block itself never stops: a command that fails ends with a status
(60_exceptions.md R205), which is a next state. -/
inductive Fault where
  /-- Raised by `runSequence` when `mu` lies past the end of the running command's sequence. No run from reset
  reaches such a state (Safety.lean, `State.PositionInRange`), and the spec gives it no effect. Safe: log 9. -/
  | positionPastEnd
deriving DecidableEq, Repr

/-- The reasons an instruction may be refused. -/
inductive Refusal where
  /-- Raised by `exec` for a command that has no meaning yet. Safe. No arm of this model uses it. -/
  | notModelled (mnemonic : String)
deriving DecidableEq, Repr

end Sys2Proof.Machine
end

