-- ==== Sys2Proof/Machine/RefTarget.lean ====
section
/-!
DEFINITION. The reference target RT: how it answers reads and performs writes (spec/20_memory.md R76 to R78).
It is the spec's fixture for test vectors; no rule of the block depends on it.
-/

namespace Sys2Proof.Machine

/-- RT's initial state (95_test_vectors.md section 3), but for the core registers a program lists. -/
def RefTarget.initial : RefTarget where
  halted := false
  debugen := false
  maskints := false
  core := Vector.replicate 32 0#32
  dcrdr := 0#32
  pend := none
  regrdy := false
  bpEn := false
  bpCtrlLast := 0#32
  bpComp := 0#32
  numCode := 4#4

/-- `core[i]`. -/
def RefTarget.getCore (t : RefTarget) (i : BitVec 5) : Word := t.core[i.toNat]'(i.isLt)

/-- `core[i] <- v`. -/
def RefTarget.setCore (t : RefTarget) (i : BitVec 5) (v : Word) : RefTarget :=
  { t with core := t.core.set i.toNat v i.isLt }

/-- How RT answers a read (20_memory.md R77). -/
def RefTarget.read (t : RefTarget) (addr : Word) : Word :=
  if addr = dhcsrAddr then bit t.halted <<< 17 ||| bit t.regrdy <<< 16
  else if addr = dcrdrAddr then t.dcrdr
  else if addr = bpCtrlAddr then t.numCode.setWidth 32 <<< 4 ||| bit t.bpEn
  else if addr = bpCompAddr then t.bpComp
  else 0#32

/-- A Status/Control write that carries the key (20_memory.md R78); `core[15]` is the PC (R76). -/
def RefTarget.control (t : RefTarget) (w : Word) : RefTarget :=
  let t1 := { t with debugen := w.getLsbD 0, maskints := w.getLsbD 3 }
  if w.getLsbD 0 = false then { t1 with halted := false }
  else if w.getLsbD 1 then { t1 with halted := true }
  else if w.getLsbD 2 then
    if t.halted then t1.setCore pcIndex (t.getCore pcIndex + 2#32) else t1
  else { t1 with halted := false }

/-- A Register-Select write (20_memory.md R78). -/
def RefTarget.select (t : RefTarget) (w : Word) : RefTarget :=
  if w.getLsbD 16 = false then { t with dcrdr := t.getCore (regsel w), pend := none, regrdy := true }
  else { t with pend := some (regsel w), regrdy := true }

/-- A Register-Data write (20_memory.md R78). -/
def RefTarget.data (t : RefTarget) (w : Word) : RefTarget :=
  match t.pend with
  | some i => { t.setCore i w with dcrdr := w, pend := none, regrdy := true }
  | none => { t with dcrdr := w, regrdy := true }

/-- How RT performs a write (20_memory.md R78). -/
def RefTarget.write (t : RefTarget) (addr w : Word) : RefTarget :=
  if addr = dhcsrAddr then if dhcsrUnlocked w then t.control w else t
  else if addr = dcrsrAddr then t.select w
  else if addr = dcrdrAddr then t.data w
  else if addr = bpCtrlAddr then
    { t with bpCtrlLast := w, bpEn := if bpCtrlUnlocked w then w.getLsbD 0 else t.bpEn }
  else if addr = bpCompAddr then { t with bpComp := w }
  else t

/-- Every RT transaction answers `Ok` (20_memory.md R76). -/
def RefTarget.answer (t : RefTarget) : BusRequest → BusAnswer × RefTarget
  | .read addr => (.ok (t.read addr), t)
  | .write addr v => (.ok 0#32, t.write addr v)

end Sys2Proof.Machine
end

