-- ==== Sys2Proof/Machine/Ops.lean ====
section
/-!
DEFINITION. The shared operations: ending a command (with a result or a raised status), one bus transaction,
the bounded poll, and running one step of a command's sequence.
-/

namespace Sys2Proof.Machine

/-! Ending a command. -/

/-- `complete(status, data, err)` (30_encoding.md R91). -/
def complete (status : Status) (data : Word) (err : Option TransportError) (s : State) : State :=
  { s with
    respStatus := status.code
    respData := data
    respErr := err
    respValid := true
    phase := .idle }

/-- `respond(v)` (00_scope.md R14): the command ends with status OK and data `v`. -/
def respond (v : Word) (s : State) : State := complete .ok v none s

/-- Taking the block's only exception: a `raise` ends the command at once with `complete(status, 0, err)`
(00_scope.md R14, 60_exceptions.md R205). There is no handler and no return from one (R206): after it the
block is ready for the next command. -/
def raise (status : Status) (err : Option TransportError) (s : State) : State := complete status 0#32 err s

/-- `raise Timeout()` (00_scope.md R14). -/
def raiseTimeout (s : State) : State := raise .timeout none s

/-- `raise Transport(e)` (00_scope.md R14): the error is forwarded unchanged (60_exceptions.md R201). -/
def raiseTransport (e : TransportError) (s : State) : State := raise .transport (some e) s

/-- `raise Illegal()` (30_encoding.md R97). -/
def raiseIllegal (s : State) : State := raise .illegal none s

/-- `raise Unsupported()` (43_breakpoint.md R185); when `P_UNSUPPORTED_FATAL` is true the phase is then FATAL
instead of IDLE (R186). -/
def raiseUnsupported (s : State) : State :=
  { raise .unsupported none s with phase := if s.params.unsupportedFatal then .fatal else .idle }

/-! The bus port. -/

/-- The bus's answer to a request, and the bus after it; `none` while it does not answer (20_memory.md R60,
R66). -/
def Bus.answer (b : Bus) (r : BusRequest) : Option (BusAnswer × Bus) :=
  match b with
  | .free n => (Config.busDraw n r).map fun a => (a, .free (n + 1))
  | .script [] => none
  | .script (a :: rest) => some (a, .script rest)
  | .reference t => some ((t.answer r).1, .reference (t.answer r).2)
  | .given a rest => some (a, rest)

/-- The bus once the answer to the request in flight has been discarded (70_reset_and_hazards.md R230): the
next request gets the answer after it. -/
def Bus.discard : Bus → Bus
  | .free n => .free (n + 1)
  | .script answers => .script answers.tail
  | .reference t => .reference t
  | .given _ rest => rest

/-- The state once the bus has answered `r` with `a`: nothing is in flight and the transaction is made. -/
def recordTransaction (r : BusRequest) (a : BusAnswer) (b : Bus) (s : State) : State :=
  { s with bus := b, outstanding := none, trace := s.trace ++ [⟨r, a⟩] }

/-- The state while the bus does not answer `r`: the block waits, without bound
(70_reset_and_hazards.md R246). -/
def awaitAnswer (r : BusRequest) (s : State) : State := { s with outstanding := some r }

/-- One bus transaction (00_scope.md R14): on `Ok` the pseudocode goes on as `k` says, with the word read; an
error raises Transport. -/
def transact (r : BusRequest) (k : Word → State → State) (s : State) : State :=
  match s.bus.answer r with
  | none => awaitAnswer r s
  | some (.ok w, b) => k w (recordTransaction r (.ok w) b s)
  | some (.err e, b) => raiseTransport e (recordTransaction r (.err e) b s)

/-! A command's pseudocode as data: a fixed, straight-line sequence of bus transactions and polls
(10_state.md R21). -/

/-- One element of a command's sequence. -/
inductive BusAction where
  /-- `MemWrite(addr, 4, v)`. -/
  | write (addr value : Word)
  /-- `v <- MemRead(addr, 4)`, the word the sequence ends with. -/
  | read (addr : Word)
  /-- `latch <- MemRead(addr, 4)` (43_breakpoint.md R180). -/
  | readLatch (addr : Word)
  /-- `poll(b)` (41_core_reg_transfer.md R140). -/
  | poll (b : StatusBit)
deriving DecidableEq, Repr

/-- How a command ends once its sequence is done. -/
inductive Finish where
  /-- `respond(v)` with the word the last transaction read. -/
  | respondRead
  /-- `respond(w)`. -/
  | respondWord (w : Word)
  /-- `respond(zext_32(num_code(latch)))` (43_breakpoint.md R180). -/
  | respondCount
  /-- `raise Unsupported()`. -/
  | unsupported
deriving DecidableEq, Repr

/-- A command's pseudocode: `mu` counts in `actions`. -/
structure Sequence where
  actions : List BusAction
  finish : Finish
deriving DecidableEq, Repr

/-- The bus request an action makes: a poll reads Status/Control. -/
def BusAction.request : BusAction → BusRequest
  | .write addr v => .write addr v
  | .read addr => .read addr
  | .readLatch addr => .read addr
  | .poll _ => .read dhcsrAddr

/-- The end of a command whose last transaction read `v`. -/
def finishCommand (f : Finish) (v : Word) (s : State) : State :=
  match f with
  | .respondRead => respond v s
  | .respondWord w => respond w s
  | .respondCount => respond (numCode s.latch) s
  | .unsupported => raiseUnsupported s

/-- `mu` moves on to the next transaction (10_state.md R21). -/
def nextPosition (s : State) : State := { s with mu := s.mu + 1 }

/-- `mu` moves on to a poll, which starts with `poll_count` 0 (41_core_reg_transfer.md R141). -/
def nextPoll (s : State) : State := { s with mu := s.mu + 1, pollCount := 0 }

/-- `poll_count <- poll_count + 1` (41_core_reg_transfer.md R140). -/
def countRead (s : State) : State := { s with pollCount := s.pollCount + 1 }

/-- `latch <- w` (43_breakpoint.md R180). -/
def latchWord (w : Word) (s : State) : State := { s with latch := w }

/-- After a transaction that completes without a `raise`, `mu` advances to the next transaction
(10_state.md R21); a poll starts with `poll_count` 0 (41_core_reg_transfer.md R141); after the last one the
command ends, in the same step (log 1). -/
def advance (q : Sequence) (v : Word) (s : State) : State :=
  match q.actions[s.mu + 1]? with
  | some (.poll _) => nextPoll s
  | some _ => nextPosition s
  | none => finishCommand q.finish v (nextPosition s)

/-- One turn of the poll's loop (41_core_reg_transfer.md R140): with reads left, one status read, counted;
the poll succeeds when it shows the bit set and keeps `mu` on the poll when not. With none left, Timeout. -/
def pollOnce (q : Sequence) (b : StatusBit) (s : State) : State :=
  if s.pollCount < s.params.pollLimit then
    transact (.read dhcsrAddr)
      (fun w s1 => if b.test w then advance q 0#32 (countRead s1) else countRead s1) s
  else raiseTimeout s

/-- One step of one action. -/
def perform (q : Sequence) (a : BusAction) (s : State) : State :=
  match a with
  | .write addr v => transact (.write addr v) (fun _ s1 => advance q 0#32 s1) s
  | .read addr => transact (.read addr) (fun w s1 => advance q w s1) s
  | .readLatch addr => transact (.read addr) (fun w s1 => advance q w (latchWord w s1)) s
  | .poll b => pollOnce q b s

/-- One step of a command at position `mu` of its sequence. A command without transactions ends at once. -/
def runSequence (q : Sequence) (s : State) : Host.Outcome State Fault Refusal :=
  match q.actions[s.mu]? with
  | some a => .next (perform q a s)
  | none => if s.mu = 0 then .next (finishCommand q.finish 0#32 s) else .fault .positionPastEnd

end Sys2Proof.Machine
end

