-- ==== Sys2Proof/Machine/Breakpoint.lean ====
section
/-!
DEFINITION. The Breakpoint Unit commands BPUNITS, BPEN, SETBP, ENBP and DISBP (spec/43_breakpoint.md).
-/

namespace Sys2Proof.Machine

/-- BPUNITS (43_breakpoint.md R180); the poll is never left out (R181). -/
def bpunitsSequence : Sequence := ⟨[.readLatch bpCtrlAddr, .poll .regrdy], .respondCount⟩

/-- One step of BPUNITS (R180). -/
def execBpunits (s : State) : Host.Outcome State Fault Refusal := runSequence bpunitsSequence s

/-- BPEN (43_breakpoint.md R182): KEY is 0 only under `P_BP_SOURCE_COMPAT`. -/
def bpenSequence (p : Params) (enable : Bool) : Sequence :=
  ⟨[.write bpCtrlAddr (bpCtrl (!p.bpSourceCompat) enable), .poll .halt], .respondWord 0#32⟩

/-- One step of BPEN (R182). -/
def execBpen (enable : Bool) (s : State) : Host.Outcome State Fault Refusal :=
  runSequence (bpenSequence s.params enable) s

/-- The register SETBP writes (43_breakpoint.md R183). -/
def setbpDest (compat : Bool) : Word := if compat then bpCtrlAddr else bpCompAddr

/-- SETBP (43_breakpoint.md R183): the one comparator the block addresses (R184). -/
def setbpSequence (p : Params) (address : Word) : Sequence :=
  ⟨[.write (setbpDest p.bpSourceCompat) (setbpWord p.bpSourceCompat address), .poll .halt], .respondWord 0#32⟩

/-- One step of SETBP (R183). -/
def execSetbp (address : Word) (s : State) : Host.Outcome State Fault Refusal :=
  runSequence (setbpSequence s.params address) s

/-- ENBP and DISBP (43_breakpoint.md R185): no bus transaction, always UNSUPPORTED. -/
def unsupportedSequence : Sequence := ⟨[], .unsupported⟩

/-- The one step of ENBP (R185, R186); the address is ignored. -/
def execEnbp (_address : Word) (s : State) : Host.Outcome State Fault Refusal := runSequence unsupportedSequence s

/-- The one step of DISBP (R185, R186); the address is ignored. -/
def execDisbp (_address : Word) (s : State) : Host.Outcome State Fault Refusal := runSequence unsupportedSequence s

end Sys2Proof.Machine
end

