-- ==== Sys2Proof/Machine/CoreTransfer.lean ====
section
/-!
DEFINITION. The Core Register Transfer commands RDREG, WRREG and BASICREG (spec/41_core_reg_transfer.md).
-/

namespace Sys2Proof.Machine

/-- The read sub-sequence `read_core(sel)` (41_core_reg_transfer.md R142); RDREG, HALT and STEP use it. -/
def readCoreActions (sel : BitVec 5) : List BusAction :=
  [.write dcrsrAddr (dcrsr false sel), .poll .regrdy, .read dcrdrAddr]

/-- RDREG (41_core_reg_transfer.md R143). -/
def rdregSequence (reg : BitVec 5) : Sequence := ⟨readCoreActions reg, .respondRead⟩

/-- One step of RDREG (R143). The index is not range-checked and the core's state is not tested. -/
def execRdreg (reg : BitVec 5) (s : State) : Host.Outcome State Fault Refusal :=
  runSequence (rdregSequence reg) s

/-- WRREG (41_core_reg_transfer.md R144): select, poll, data, poll. -/
def wrregSequence (reg : BitVec 5) (value : Word) : Sequence :=
  ⟨[.write dcrsrAddr (dcrsr true reg), .poll .regrdy, .write dcrdrAddr (dcrdrWord value), .poll .regrdy],
   .respondWord 0#32⟩

/-- One step of WRREG (R144). -/
def execWrreg (reg : BitVec 5) (value : Word) (s : State) : Host.Outcome State Fault Refusal :=
  runSequence (wrregSequence reg value) s

/-- BASICREG (41_core_reg_transfer.md R145): no bus transaction. -/
def basicregSequence (sel : BitVec 3) : Sequence := ⟨[], .respondWord (basicReg sel)⟩

/-- The one step of BASICREG (R145). -/
def execBasicreg (sel : BitVec 3) (s : State) : Host.Outcome State Fault Refusal :=
  runSequence (basicregSequence sel) s

end Sys2Proof.Machine
end

