-- ==== Sys2Proof/Machine/ExecControl.lean ====
section
/-!
DEFINITION. The Core Execution Control commands HALT, RUN, STEP and WAITH (spec/42_exec_control.md).
-/

namespace Sys2Proof.Machine

/-- HALT (42_exec_control.md R163): it does not test S_HALT (R166). -/
def haltSequence : Sequence :=
  ⟨.write dhcsrAddr (dhcsrCtrl false false true true) :: readCoreActions pcIndex, .respondRead⟩

/-- One step of HALT (R163). -/
def execHalt (s : State) : Host.Outcome State Fault Refusal := runSequence haltSequence s

/-- RUN (42_exec_control.md R164): one write, no confirmation. -/
def runCommandSequence : Sequence :=
  ⟨[.write dhcsrAddr (dhcsrCtrl false false false false)], .respondWord 0#32⟩

/-- The one step of RUN (R164). -/
def execRun (s : State) : Host.Outcome State Fault Refusal := runSequence runCommandSequence s

/-- STEP (42_exec_control.md R165): the poll takes the first read with S_HALT = 1 (R167). -/
def stepSequence : Sequence :=
  ⟨.write dhcsrAddr (dhcsrCtrl true true false true) :: .poll .halt :: readCoreActions pcIndex, .respondRead⟩

/-- One step of STEP (R165). -/
def execStep (s : State) : Host.Outcome State Fault Refusal := runSequence stepSequence s

/-- WAITH (42_exec_control.md R162). -/
def waithSequence : Sequence := ⟨[.poll .halt], .respondWord 0#32⟩

/-- One step of WAITH (R162). -/
def execWaith (s : State) : Host.Outcome State Fault Refusal := runSequence waithSequence s

end Sys2Proof.Machine
end

