-- ==== Sys2Proof/Machine/Dispatch.lean ====
section
/-!
DEFINITION. One step of a running command: the rule of each command (spec/30_encoding.md R94, column "rule").
-/

namespace Sys2Proof.Machine

/-- One step of command `i` from a state that runs it. -/
def exec (i : Instr) (s : State) : Host.Outcome State Fault Refusal :=
  match i with
  | .rdreg reg => Sys2Proof.Machine.execRdreg reg s
  | .wrreg reg value => Sys2Proof.Machine.execWrreg reg value s
  | .halt => Sys2Proof.Machine.execHalt s
  | .run => Sys2Proof.Machine.execRun s
  | .step => Sys2Proof.Machine.execStep s
  | .waith => Sys2Proof.Machine.execWaith s
  | .bpunits => Sys2Proof.Machine.execBpunits s
  | .bpen enable => Sys2Proof.Machine.execBpen enable s
  | .setbp address => Sys2Proof.Machine.execSetbp address s
  | .enbp address => Sys2Proof.Machine.execEnbp address s
  | .disbp address => Sys2Proof.Machine.execDisbp address s
  | .basicreg sel => Sys2Proof.Machine.execBasicreg sel s

end Sys2Proof.Machine
end

