-- ==== Sys2Proof/WellFormed.lean ====
section
/-!
DEFINITION. Which assembly lines and which command words are well formed. An `Instr` needs no check: each
operand has its field's width.
-/

namespace Sys2Proof

/-- The operand ranges of 30_encoding.md R99: `rN` is `r0` to `r31`, `e` is 0 or 1, `s` is 0 to 7, and a
literal is a 32-bit word. -/
def Asm.wf : Asm → Bool
  | .rdreg n => n < 32
  | .wrreg n v => n < 32 && v < 2 ^ 32
  | .bpen e => e < 2
  | .setbp a => a < 2 ^ 32
  | .enbp a => a < 2 ^ 32
  | .disbp a => a < 2 ^ 32
  | .basicreg s => s < 8
  | .halt => true
  | .run => true
  | .step => true
  | .waith => true
  | .bpunits => true

/-- The fields of a command word (30_encoding.md R92) that an opcode may have: the mask of its operand bits. -/
def Opcode.operandBits : Opcode → Word
  | .rdreg | .wrreg => 0x000001F0#32
  | .bpen => 0x00001000#32
  | .basicreg => 0x00070000#32
  | .halt | .run | .step | .waith | .bpunits | .setbp | .enbp | .disbp => 0#32

/-- The OP field's value (30_encoding.md R94). -/
def Opcode.number : Opcode → Word
  | .rdreg => 0x1#32
  | .wrreg => 0x2#32
  | .halt => 0x3#32
  | .run => 0x4#32
  | .step => 0x5#32
  | .waith => 0x6#32
  | .bpunits => 0x7#32
  | .bpen => 0x8#32
  | .setbp => 0x9#32
  | .enbp => 0xA#32
  | .disbp => 0xB#32
  | .basicreg => 0xC#32

/-- All opcodes. -/
def Opcode.all : List Opcode :=
  [.rdreg, .wrreg, .halt, .run, .step, .waith, .bpunits, .bpen, .setbp, .enbp, .disbp, .basicreg]

/-- The OP field (bits 3:0) names an opcode: 30_encoding.md R94, `0x1` to `0xC`. -/
def opcodeUsed (cmd : Word) : Bool :=
  1 ≤ (cmd &&& 0xF#32).toNat && (cmd &&& 0xF#32).toNat ≤ 12

/-- Every bit of `cmd` that is no field of the opcode in OP is 0 (30_encoding.md R92). -/
def reservedBitsClear (cmd : Word) : Bool :=
  Opcode.all.any fun op => op.number == cmd &&& 0xF#32 && cmd &&& ~~~(op.operandBits ||| 0xF#32) == 0#32

/-- A command word is well formed when its opcode is used and its reserved bits are 0 (R92, R97). -/
def commandWordWf (cmd : Word) : Bool :=
  opcodeUsed cmd && reservedBitsClear cmd

end Sys2Proof
end

