-- ==== Sys2Proof/Decode.lean ====
section
/-!
DEFINITION. The decoder and the encoder of command words (spec/30_encoding.md R92 to R97, R99), from the
`match` and `mask` columns of R94.
-/

namespace Sys2Proof

/-- The `match` column of 30_encoding.md R94. -/
def Opcode.pattern : Opcode → Word
  | .rdreg => 0x00000001#32
  | .wrreg => 0x00000002#32
  | .halt => 0x00000003#32
  | .run => 0x00000004#32
  | .step => 0x00000005#32
  | .waith => 0x00000006#32
  | .bpunits => 0x00000007#32
  | .bpen => 0x00000008#32
  | .setbp => 0x00000009#32
  | .enbp => 0x0000000A#32
  | .disbp => 0x0000000B#32
  | .basicreg => 0x0000000C#32

/-- The `mask` column of 30_encoding.md R94. -/
def Opcode.mask : Opcode → Word
  | .rdreg => 0xFFFFFE0F#32
  | .wrreg => 0xFFFFFE0F#32
  | .halt => 0xFFFFFFFF#32
  | .run => 0xFFFFFFFF#32
  | .step => 0xFFFFFFFF#32
  | .waith => 0xFFFFFFFF#32
  | .bpunits => 0xFFFFFFFF#32
  | .bpen => 0xFFFFEFFF#32
  | .setbp => 0xFFFFFFFF#32
  | .enbp => 0xFFFFFFFF#32
  | .disbp => 0xFFFFFFFF#32
  | .basicreg => 0xFFF8FFFF#32

/-- A row of R94 is selected when `(cmd & mask) == match` (30_encoding.md R97). -/
def Opcode.selects (op : Opcode) (cmd : Word) : Bool :=
  cmd &&& op.mask == op.pattern

/-- `decode(cmd)` of 30_encoding.md R97: the row that selects `cmd`, if one does. -/
def selectOpcode (cmd : Word) : Option Opcode :=
  Opcode.all.find? fun op => op.selects cmd

/-- REG = `cmd[8:4]` (30_encoding.md R92). -/
def regField (cmd : Word) : BitVec 5 := cmd.extractLsb' 4 5

/-- EN = `cmd[12]` (30_encoding.md R92). -/
def enField (cmd : Word) : Bool := cmd.getLsbD 12

/-- SEL = `cmd[18:16]` (30_encoding.md R92). -/
def selField (cmd : Word) : BitVec 3 := cmd.extractLsb' 16 3

/-- The operands of a selected row, formed from the fields with no arithmetic (30_encoding.md R93). -/
def Opcode.withOperands (op : Opcode) (cmd arg : Word) : Instr :=
  match op with
  | .rdreg => .rdreg (regField cmd)
  | .wrreg => .wrreg (regField cmd) arg
  | .halt => .halt
  | .run => .run
  | .step => .step
  | .waith => .waith
  | .bpunits => .bpunits
  | .bpen => .bpen (enField cmd)
  | .setbp => .setbp arg
  | .enbp => .enbp arg
  | .disbp => .disbp arg
  | .basicreg => .basicreg (selField cmd)

/-- Why a command word is illegal: the two cases of 30_encoding.md R97. -/
inductive DecodeError where
  /-- OP is `0x0` or `0xD` to `0xF`. -/
  | unusedOpcode
  /-- A reserved bit is set for the selected OP. -/
  | reservedBitSet
deriving DecidableEq, Repr

/-- The decoder: total on every command pair; a word that no row selects is rejected by name (R97). For a
command that uses no argument, `arg` is ignored and not checked (R90). -/
def decode (cmd arg : Word) : Except DecodeError Instr :=
  match selectOpcode cmd with
  | some op => .ok (op.withOperands cmd arg)
  | none => .error (if opcodeUsed cmd then .reservedBitSet else .unusedOpcode)

/-- The encoder: command and argument word of R99's table. A command without an operand in `arg` has `arg` 0. -/
def encode : Instr → Command
  | .rdreg reg => ⟨reg.setWidth 32 <<< 4 ||| 0x1#32, 0#32⟩
  | .wrreg reg value => ⟨reg.setWidth 32 <<< 4 ||| 0x2#32, value⟩
  | .halt => ⟨0x3#32, 0#32⟩
  | .run => ⟨0x4#32, 0#32⟩
  | .step => ⟨0x5#32, 0#32⟩
  | .waith => ⟨0x6#32, 0#32⟩
  | .bpunits => ⟨0x7#32, 0#32⟩
  | .bpen enable => ⟨(BitVec.ofBool enable).setWidth 32 <<< 12 ||| 0x8#32, 0#32⟩
  | .setbp address => ⟨0x9#32, address⟩
  | .enbp address => ⟨0xA#32, address⟩
  | .disbp address => ⟨0xB#32, address⟩
  | .basicreg sel => ⟨sel.setWidth 32 <<< 16 ||| 0xC#32, 0#32⟩

/-- The command an assembly line stands for; `none` where an operand is out of R99's range. -/
def assemble (line : Asm) : Option Instr :=
  if line.wf then
    some (match line with
      | .rdreg n => .rdreg (BitVec.ofNat 5 n)
      | .wrreg n v => .wrreg (BitVec.ofNat 5 n) (BitVec.ofNat 32 v)
      | .halt => .halt
      | .run => .run
      | .step => .step
      | .waith => .waith
      | .bpunits => .bpunits
      | .bpen e => .bpen (e == 1)
      | .setbp a => .setbp (BitVec.ofNat 32 a)
      | .enbp a => .enbp (BitVec.ofNat 32 a)
      | .disbp a => .disbp (BitVec.ofNat 32 a)
      | .basicreg s => .basicreg (BitVec.ofNat 3 s))
  else none

/-- An assembly line as text, 30_encoding.md R99 (literals in decimal). -/
def asmText : Asm → String
  | .rdreg n => "RDREG r" ++ toString n
  | .wrreg n v => "WRREG r" ++ toString n ++ ", #" ++ toString v
  | .halt => "HALT"
  | .run => "RUN"
  | .step => "STEP"
  | .waith => "WAITH"
  | .bpunits => "BPUNITS"
  | .bpen e => "BPEN #" ++ toString e
  | .setbp a => "SETBP #" ++ toString a
  | .enbp a => "ENBP #" ++ toString a
  | .disbp a => "DISBP #" ++ toString a
  | .basicreg s => "BASICREG #" ++ toString s

/-- The command pair held in the low `nbits` bits of `w`: the command word is bits 31:0, the argument word
bits 63:32 (R90: the command word comes first). Bits above `nbits` are 0. -/
def commandOfBits (nbits w : Nat) : Command :=
  ⟨BitVec.ofNat 32 (w % 2 ^ nbits), BitVec.ofNat 32 (w % 2 ^ nbits / 2 ^ 32)⟩

/-- The instruction the decoder reads from the instruction whose low `nbits` bits are `w`. -/
def decodeTableWord (nbits w : Nat) : Option Instr :=
  (decode (commandOfBits nbits w).cmd (commandOfBits nbits w).arg).toOption

end Sys2Proof
end

