-- ==== Sys2Proof/Machine/Port.lean ====
section
/-!
DEFINITION. The command port, the reset input and the host's moves (spec/30_encoding.md R91, 60_exceptions.md
R217, 70_reset_and_hazards.md R230).
-/

namespace Sys2Proof.Machine

/-- `accept(c, a)` of 30_encoding.md R91: the registers it writes. Nothing is in flight when a command is
accepted. -/
def accept (c : Command) (s : State) : State :=
  { s with
    cmd := c.cmd
    arg := c.arg
    mu := 0
    pollCount := 0
    latch := 0#32
    respValid := false
    phase := .busy
    outstanding := none }

/-- A step in IDLE: the command on the port, if there is one, is accepted and leaves the port; else the block
waits for one (30_encoding.md R91, 70_reset_and_hazards.md R232). -/
def idleStep (s : State) : State :=
  match s.cmdPort with
  | none => s
  | some c => accept c { s with cmdPort := none }

/-- A reset of the block (70_reset_and_hazards.md R230, R231; values of 10_state.md R43). It makes no bus
transaction and changes nothing in the target; the answer to a request in flight is discarded. A command the
host presents stays on the port (log 7). -/
def blockReset (s : State) : State :=
  { s with
    phase := .idle
    cmd := 0#32
    arg := 0#32
    mu := 0
    pollCount := 0
    latch := 0#32
    respValid := false
    respStatus := 0#3
    respData := 0#32
    respErr := none
    outstanding := none
    bus := if s.outstanding.isSome then s.bus.discard else s.bus
    resetReq := false }

/-- The command a running block runs: decoded from the latched words (30_encoding.md R97). -/
def runningInstr (s : State) : Except DecodeError Instr := decode s.cmd s.arg

/-- The moves 60_exceptions.md R217 allows the host; "a model gives the host no move that this table does not
allow". -/
inductive HostMove where
  /-- Present a command on the port. -/
  | present (c : Command)
  /-- Answer the bus request in flight. -/
  | answer (a : BusAnswer)
  /-- Assert the reset input. -/
  | reset
deriving DecidableEq, Repr

/-- The host has given an answer that the block has not yet taken. -/
def Bus.hasGiven : Bus → Bool
  | .given _ _ => true
  | .free _ => false
  | .script _ => false
  | .reference _ => false

/-- The bus once the host has given `a` as the answer to the request in flight, whatever is behind the port: `a`
stands in the place of the answer that did not come. -/
def Bus.give (b : Bus) (a : BusAnswer) : Bus := .given a b.discard

/-- When the table of 60_exceptions.md R217 allows a move: a command "when `phase` = IDLE", one pair at a time
(decision D2); an answer to a request in flight, once; a reset "at any time". Log 6 for the port, log 4 for the
answer. -/
def HostMove.allowed (m : HostMove) (s : State) : Bool :=
  match m with
  | .present _ => s.phase == .idle && s.cmdPort.isNone
  | .answer _ => s.outstanding.isSome && !s.bus.hasGiven
  | .reset => true

/-- What an allowed move of the host changes (60_exceptions.md R217). -/
def HostMove.apply (m : HostMove) (s : State) : State :=
  match m with
  | .present c => { s with cmdPort := some c }
  | .answer a => { s with bus := s.bus.give a }
  | .reset => { s with resetReq := true }

/-- A move of the host; `none` where R217 gives the host no such move. -/
def hostMove (m : HostMove) (s : State) : Option State :=
  if m.allowed s then some (m.apply s) else none

/-- A response (30_encoding.md R96). -/
structure Response where
  status : BitVec 3
  data : Word
  err : Option TransportError
deriving DecidableEq, Repr

/-- The response the block returns to the host: only "when `resp_valid`" (60_exceptions.md R217), so a host that
reads it has waited. -/
def hostResponse (s : State) : Option Response :=
  if s.respValid then some ⟨s.respStatus, s.respData, s.respErr⟩ else none

/-- STEP has made its Status/Control write and its `poll_halt` has not succeeded: the time for which
42_exec_control.md R160 says Stepping. DESIGN CHOICE, unsafe, log 13: once `poll_halt` has succeeded the model
counts no STEP as in progress, although the command still reads the PC (`mu` 2 to 4), so a word with S_HALT = 0
read then shows Running; R160 gives that word no state (its Stepping has ended, and its Running asks that no STEP
be in progress). The same holds before the Status/Control write (`mu` 0), where no word is read. -/
def stepInProgress (s : State) : Bool :=
  s.phase == .busy && runningInstr s == .ok .step && s.mu == 1

/-- The target core's logical state as the block derives it from a Status/Control word
(42_exec_control.md R160, 00_scope.md R17). No register holds it. For S_HALT = 0 while STEP reads the PC: log 13. -/
def logicalState (s : State) (w : Word) : CoreState := coreStateOf (stepInProgress s) w

end Sys2Proof.Machine
end

