-- ==== Sys2Proof/Machine/Step.lean ====
section
/-!
DEFINITION. One step of the block (spec/00_scope.md R8): a reset, the acceptance of a command, or one step of
the running command.
-/

namespace Sys2Proof.Machine

/-- One step. A reset has priority (log 7). In FATAL nothing happens until reset (43_breakpoint.md R186). A
command word that decodes to nothing ends with ILLEGAL (30_encoding.md R97). -/
def step (s : State) : Host.Outcome State Fault Refusal :=
  if s.resetReq then .next (blockReset s)
  else match s.phase with
    | .fatal => .next s
    | .idle => .next (idleStep s)
    | .busy =>
      match runningInstr s with
      | .ok i => exec i s
      | .error _ => .next (raiseIllegal s)

/-- The state with the command whose bits are the low `nbits` bits of `w` presented and accepted
(30_encoding.md R91), so that the next step is that command's first. The block has no program counter and
fetches nothing (10_state.md R21): its command is in `cmd` and `arg`. Log 6. -/
def State.withFetchWord (s : State) (nbits w : Nat) : State :=
  accept (commandOfBits nbits w) { s with resetReq := false }

end Sys2Proof.Machine
end

