-- ==== Sys2Proof/Safety.lean ====
section
/-!
DEFINITION. What holds of the block in every run, in the terms the statements use.
-/

namespace Sys2Proof.Machine

/-- The pseudocode of a command under the parameters `p`, as the sequence its meaning runs. -/
def commandSequence (p : Params) : Instr → Sequence
  | .rdreg reg => rdregSequence reg
  | .wrreg reg value => wrregSequence reg value
  | .halt => haltSequence
  | .run => runCommandSequence
  | .step => stepSequence
  | .waith => waithSequence
  | .bpunits => bpunitsSequence
  | .bpen enable => bpenSequence p enable
  | .setbp address => setbpSequence p address
  | .enbp _ => unsupportedSequence
  | .disbp _ => unsupportedSequence
  | .basicreg sel => basicregSequence sel

/-- The bus request that command `i` makes at the state's position, if it makes one there: a poll that has used
up its reads makes none. -/
def dueRequest (i : Instr) (s : State) : Option BusRequest :=
  match (commandSequence s.params i).actions[s.mu]? with
  | some (.poll b) => if s.pollCount < s.params.pollLimit then some (BusAction.poll b).request else none
  | some a => some a.request
  | none => none

/-- The transactions of 20_memory.md R72: the addresses the block reads, and those it writes under
`P_BP_SOURCE_COMPAT` = `compat`. -/
def inAddressMap (compat : Bool) : BusRequest → Bool
  | .read addr => addr == dhcsrAddr || addr == dcrdrAddr || addr == bpCtrlAddr
  | .write addr _ =>
    addr == dhcsrAddr || addr == dcrsrAddr || addr == dcrdrAddr || addr == bpCtrlAddr ||
      (addr == bpCompAddr && !compat)

/-- Every transaction made so far is one the address map allows (20_memory.md R72). -/
abbrev State.TraceInMap (s : State) : Prop :=
  ∀ t ∈ s.trace, inAddressMap s.params.bpSourceCompat t.request = true

/-- The response registers: codes 5 to 7 are never produced (10_state.md R24), a status other than OK comes with
data 0, and an error is held exactly with TRANSPORT (30_encoding.md R96). -/
abbrev State.ResponseConsistent (s : State) : Prop :=
  s.respStatus.toNat ≤ 4 ∧
  (s.respStatus ≠ Status.code .ok → s.respData = 0#32) ∧
  (s.respErr.isSome = true ↔ s.respStatus = Status.code .transport)

/-- The phase: no response is held while a command runs, and FATAL follows only an unsupported command under
`P_UNSUPPORTED_FATAL` (30_encoding.md R91, 43_breakpoint.md R186). -/
abbrev State.PhaseConsistent (s : State) : Prop :=
  (s.phase = .busy → s.respValid = false) ∧
  (s.phase = .fatal →
    s.params.unsupportedFatal = true ∧ s.respValid = true ∧ s.respStatus = Status.code .unsupported)

/-- How far a running command's `mu` may reach: inside its sequence, or 0 for a command without transactions
and for an illegal word (10_state.md R21). -/
def State.positionBound (s : State) : Nat :=
  match runningInstr s with
  | .ok i => max 1 (commandSequence s.params i).actions.length
  | .error _ => 1

/-- A running command's `mu` lies inside its sequence. -/
abbrev State.PositionInRange (s : State) : Prop := s.phase = .busy → s.mu < s.positionBound

/-- `poll_count` lies in 0 .. `P_POLL_LIMIT` (10_state.md R20, 60_exceptions.md R211). -/
abbrev State.PollBounded (s : State) : Prop := s.pollCount ≤ s.params.pollLimit

/-- A request in flight is the one the running command has due (20_memory.md R68). -/
abbrev State.OutstandingDue (s : State) : Prop :=
  ∀ r, s.outstanding = some r →
    s.phase = .busy ∧ ∃ i, runningInstr s = .ok i ∧ dueRequest i s = some r

/-- At most one answer is given ahead of the bus. -/
def Bus.givenOnce : Bus → Bool
  | .given _ rest => !rest.hasGiven
  | .free _ => true
  | .script _ => true
  | .reference _ => true

/-- The host's answer waits only while the request it answers is in flight, and it answers each request once
(60_exceptions.md R217). -/
abbrev State.GivenInFlight (s : State) : Prop :=
  s.bus.givenOnce = true ∧ (s.bus.hasGiven = true → s.outstanding.isSome = true)

/-- What every run keeps. -/
abbrev State.Inv (s : State) : Prop :=
  s.ResponseConsistent ∧ s.PhaseConsistent ∧ s.PositionInRange ∧ s.PollBounded ∧ s.OutstandingDue ∧ s.TraceInMap ∧
    s.GivenInFlight

/-! Runs of one command. -/

/-- The block runs command `i` and no reset is asserted. -/
abbrev State.Running (i : Instr) (s : State) : Prop :=
  s.resetReq = false ∧ s.phase = .busy ∧ runningInstr s = .ok i

/-- `n` steps of the block from `s`. -/
def runSteps (n : Nat) (s : State) : Host.Outcome State Fault Refusal := Host.Core.run Sys2Proof.core n s

/-- The word of every status read of `ws` shows the bit clear. -/
abbrev AllClear (b : StatusBit) (ws : List Word) : Prop := ∀ w ∈ ws, b.test w = false

/-- The answers `Ok(w)` for the words of `ws`. -/
def okAnswers (ws : List Word) : List BusAnswer := ws.map .ok

/-- The Status/Control reads that returned the words of `ws`. -/
def statusReads (ws : List Word) : List BusTransaction := ws.map fun w => ⟨.read dhcsrAddr, .ok w⟩

/-- The state `s` of a running command once it has made the transactions `txs` and ended with `status`, `data`
and `err`: `mu` and `pollCount` as given, `rest` the answers not yet used; every other field is that of `s`. -/
def State.endedAfter (s : State) (mu pollCount : Nat) (txs : List BusTransaction) (rest : List BusAnswer)
    (status : Status) (data : Word) (err : Option TransportError) : State :=
  { s with
    phase := .idle
    mu := mu
    pollCount := pollCount
    respValid := true
    respStatus := status.code
    respData := data
    respErr := err
    outstanding := none
    bus := .script rest
    trace := s.trace ++ txs }

end Sys2Proof.Machine
end

