-- ==== Sys2Proof/Certificates/Slice0/Obligations.lean ====
section
/-!
DEFINITION. The statements for the provers. Addresses and words are written out as the spec writes them.
-/

open Sys2Proof Sys2Proof.Machine

/-! ### The Register Codec -/

/-- 40_codec.md section 6 (the spec marks the laws as derived): for every field of a 32-bit word, setting a field
to what it holds changes nothing, a field set to `v` holds `v mod 2^width`, and a field that does not overlap it
is unchanged. -/
def Obligations.FieldGetSetLaws : Prop :=
  ∀ f : RegField, f.lo ≤ f.hi → f.hi < 32 →
    (∀ w, f.set w (f.get w) = w) ∧
    (∀ w v, (f.get (f.set w v)).toNat = v.toNat % 2 ^ f.width) ∧
    (∀ g : RegField, g.lo ≤ g.hi → g.hi < 32 → (g.hi < f.lo ∨ f.hi < g.lo) →
      ∀ w v, g.get (f.set w v) = g.get w)

/-- 40_codec.md R114, whole: `enable_write` ORs the key in; it is idempotent, never alters bits 15:0, and yields
the key in bits 31:16 exactly when no bit outside the key was set there. -/
def Obligations.EnableWriteOrsTheKey : Prop :=
  ∀ w : Word,
    enableWrite w = w ||| 0xA05F0000#32 ∧
    enableWrite (enableWrite w) = enableWrite w ∧
    enableWrite w &&& 0xFFFF#32 = w &&& 0xFFFF#32 ∧
    (dbgkey (enableWrite w) = 0xA05F#32 ↔ w &&& 0x5FA00000#32 = 0#32)

/-- 40_codec.md section 2 (R113 carries the spec's decision D7 and its general knowledge, R115 is marked derived): the
Status/Control word is the control bits with the key, and the words of HALT, RUN and STEP. The positions 3, 2, 1 and 0
of the control bits, and with them the words `0xA05F_0003` and `0xA05F_000D`, are general knowledge (log 11). -/
def Obligations.StatusControlWords : Prop :=
  (∀ m st h d : Bool,
    dhcsrCtrl m st h d = 0xA05F0000#32 ||| bit m <<< 3 ||| bit st <<< 2 ||| bit h <<< 1 ||| bit d) ∧
  dhcsrCtrl false false true true = 0xA05F0003#32 ∧
  dhcsrCtrl false false false false = 0xA05F0000#32 ∧
  dhcsrCtrl true true false true = 0xA05F000D#32

/-- 40_codec.md section 2 (R112, positions from the spec's general knowledge, log 11): the bit each DHCSR getter
reads, and that a poll tests bit 16 or bit 17. -/
def Obligations.StatusBitsAreReadAtTheirPlaces : Prop :=
  ∀ w : Word,
    sResetSt w = bit (w.getLsbD 25) ∧ sRetireSt w = bit (w.getLsbD 24) ∧ sLockup w = bit (w.getLsbD 19) ∧
    sSleep w = bit (w.getLsbD 18) ∧ sHalt w = bit (w.getLsbD 17) ∧ sRegrdy w = bit (w.getLsbD 16) ∧
    cMaskints w = bit (w.getLsbD 3) ∧ cStep w = bit (w.getLsbD 2) ∧ cHalt w = bit (w.getLsbD 1) ∧
    cDebugen w = bit (w.getLsbD 0) ∧ dbgkey w = w >>> 16 ∧
    StatusBit.regrdy.test w = w.getLsbD 16 ∧ StatusBit.halt.test w = w.getLsbD 17

/-- 40_codec.md R116 (and, as its inverse, R117): the Register-Select word is the direction in bit 16 and the
index in bits 4:0, with every other bit 0, and both are read back from it. -/
def Obligations.RegisterSelectWord : Prop :=
  ∀ (wnr : Bool) (sel : BitVec 5),
    dcrsr wnr sel = bit wnr <<< 16 ||| sel.setWidth 32 ∧
    dcrsr wnr sel &&& 0xFFFEFFE0#32 = 0#32 ∧
    regwnr (dcrsr wnr sel) = bit wnr ∧ regsel (dcrsr wnr sel) = sel

/-- 40_codec.md R119: the fields of a Breakpoint Control word; its reserved bits are ignored. -/
def Obligations.BreakpointControlFields : Prop :=
  ∀ w : Word,
    numCode w = (w.extractLsb' 4 4).setWidth 32 ∧ bpKey w = bit (w.getLsbD 1) ∧
    bpEnable w = bit (w.getLsbD 0)

/-- 40_codec.md R122: the comparator word is the mode in bits 31:30, 27 bits of `c` in bits 28:2 and the enable in
bit 0; bits 29 and 1 are 0; and the fields are read back from it. -/
def Obligations.ComparatorWord : Prop :=
  ∀ (mode c : Word) (en : Bool),
    bpComp mode c en = ((mode &&& 3#32) <<< 30) ||| ((c <<< 2) &&& 0x1FFFFFFC#32) ||| bit en ∧
    (bpComp mode c en).getLsbD 29 = false ∧ (bpComp mode c en).getLsbD 1 = false ∧
    bpMatch (bpComp mode c en) = mode &&& 3#32 ∧ comp (bpComp mode c en) = c &&& 0x07FFFFFF#32 ∧
    compEnable (bpComp mode c en) = bit en

/-- 40_codec.md R124: with the register semantics SETBP's word holds bits 28:2 of the address, so two addresses
that differ only in bits 31:29 and 1:0 give the same word, and the word matches the address with those bits
cleared. -/
def Obligations.SetbpWordKeepsAddressBits28To2 : Prop :=
  ∀ a : Word,
    compArch a = (a.extractLsb' 2 27).setWidth 32 ∧
    setbpWord false a = 0xC0000001#32 ||| (a &&& 0x1FFFFFFC#32) ∧
    matchAddress (setbpWord false a) = a &&& 0x1FFFFFFC#32 ∧
    ∀ a' : Word, a' &&& 0x1FFFFFFC#32 = a &&& 0x1FFFFFFC#32 → setbpWord false a' = setbpWord false a

/-- 40_codec.md section 5 (R125, the spec's decision D10): with the source's expression only address bits 28:26
survive; KEY of the word is 0 and its mode and enable are those of the register semantics. -/
def Obligations.SourceCompatSetbpWord : Prop :=
  ∀ a : Word,
    setbpWord true a = 0xC0000001#32 ||| (a &&& 0x1C000000#32) ||| 0x03FFFFFC#32 ∧
    bpCtrlUnlocked (setbpWord true a) = false ∧
    bpMatch (setbpWord true a) = 3#32 ∧ compEnable (setbpWord true a) = 1#32 ∧
    bpMatch (setbpWord false a) = 3#32 ∧ compEnable (setbpWord false a) = 1#32

/-! ### Command words -/

/-- 30_encoding.md sections 2, 3 and 5 (the spec's decisions D3, D18): decoding what the encoder writes gives the
command back, with every operand. -/
def Obligations.DecodeOfEncode : Prop :=
  ∀ i : Instr, decode (encode i).cmd (encode i).arg = .ok i

/-- 30_encoding.md sections 2 and 3 (decision D3): a decoded command's encoding is the command word it was decoded
from, and the argument word where the command uses it. -/
def Obligations.EncodeOfDecode : Prop :=
  ∀ (cmd arg : Word) (i : Instr), decode cmd arg = .ok i →
    (encode i).cmd = cmd ∧
    (match i with
      | .wrreg _ v => v = arg
      | .setbp a => a = arg
      | .enbp a => a = arg
      | .disbp a => a = arg
      | _ => (encode i).arg = 0#32)

/-- 30_encoding.md section 4 (R97, decision D13): at most one row of the opcode map selects a word. -/
def Obligations.AtMostOneRowSelects : Prop :=
  ∀ (cmd : Word) (o o' : Opcode), o.selects cmd = true → o'.selects cmd = true → o = o'

/-- 30_encoding.md section 4 (R97, decision D13): a word is illegal in exactly two cases, an OP of 0 or 13 to 15,
and a reserved bit set for a used OP; the second is said with the field table of R92, not with the masks. -/
def Obligations.IllegalWordsAreTheTwoCases : Prop :=
  ∀ cmd arg : Word,
    (decode cmd arg = .error .unusedOpcode ↔ (cmd.toNat % 16 = 0 ∨ 13 ≤ cmd.toNat % 16)) ∧
    (decode cmd arg = .error .reservedBitSet ↔
      ¬ (cmd.toNat % 16 = 0 ∨ 13 ≤ cmd.toNat % 16) ∧ reservedBitsClear cmd = false)

/-- 30_encoding.md section 5 and 95_test_vectors.md section 2 (decision D3): a few words and what they decode
to. -/
def Obligations.SampleWordsDecode : Prop :=
  decode 0x000001F1#32 0#32 = .ok (.rdreg 31#5) ∧
  decode 0x00000012#32 0x12345678#32 = .ok (.wrreg 1#5 0x12345678#32) ∧
  decode 0x00000005#32 0#32 = .ok .step ∧
  decode 0x00001008#32 0#32 = .ok (.bpen true) ∧
  decode 0x0005000C#32 0#32 = .ok (.basicreg 5#3) ∧
  decode 0x00000201#32 0#32 = .error .reservedBitSet ∧
  decode 0x0000000D#32 0#32 = .error .unusedOpcode

/-! ### Steps of the block -/

/-- 00_scope.md section 2 (R8) and 30_encoding.md section 1 (R91): while a command runs and no reset is asserted, a
step is one step of the decoded command; the step adds nothing around it. The cut into steps is the model's reading
(log 1), the reset line its own (log 7). -/
def Obligations.StepRunsTheDecodedCommand : Prop :=
  ∀ (i : Instr) (s : State), s.resetReq = false → s.phase = .busy → decode s.cmd s.arg = .ok i →
    step s = exec i s

/-- 30_encoding.md section 4 (R97, decision D13): a latched word that no row selects ends with ILLEGAL, without a bus
transaction. That it takes one step is the model's reading (log 1). -/
def Obligations.IllegalWordEndsWithIllegal : Prop :=
  ∀ s : State, s.resetReq = false → s.phase = .busy → selectOpcode s.cmd = none →
    step s = .next { s with
      phase := .idle, respValid := true, respStatus := 4#3, respData := 0#32, respErr := none }

/-- 30_encoding.md section 1 (R91, decision D2): in IDLE the command on the port is latched and the block is BUSY with
it; with none presented the block stays as it is. The port as a field, and acceptance as a step, are the model's
(logs 1, 6). -/
def Obligations.IdleAcceptsThePresentedCommand : Prop :=
  ∀ s : State, s.resetReq = false → s.phase = .idle →
    (s.cmdPort = none → step s = .next s) ∧
    (∀ c, s.cmdPort = some c →
      step s = .next { s with
        cmd := c.cmd, arg := c.arg, mu := 0, pollCount := 0, latch := 0#32, respValid := false, phase := .busy,
        outstanding := none, cmdPort := none })

/-- 30_encoding.md section 1 (R91, decision D2): while the phase is BUSY or FATAL no command is accepted: the latched
words and the port stay as they are. The port as a field is the model's (log 6). -/
def Obligations.NoCommandIsAcceptedUnlessIdle : Prop :=
  ∀ s s' : State, s.resetReq = false → s.phase ≠ .idle → step s = .next s' →
    s'.cmd = s.cmd ∧ s'.arg = s.arg ∧ s'.cmdPort = s.cmdPort

/-- 30_encoding.md section 4 (R98, decision D2): once a command has ended, its response stays until the next command
is accepted, and accepting it clears `resp_valid`. The reset line is the model's (log 7). -/
def Obligations.ResponseStaysUntilTheNextCommand : Prop :=
  ∀ s s' : State, s.resetReq = false → s.phase ≠ .busy → step s = .next s' →
    s'.respStatus = s.respStatus ∧ s'.respData = s.respData ∧ s'.respErr = s.respErr ∧
    ((s'.phase = s.phase ∧ s'.respValid = s.respValid) ∨ (s'.phase = .busy ∧ s'.respValid = false))

/-- 10_state.md section 8 (R43) and 70_reset_and_hazards.md section 1 (R230, R231; decision D12): a reset, whatever
the phase, leaves these values; it makes no transaction, leaves the command on the port and the parameters, and
touches the bus only to discard the answer to a request in flight. `Machine.State.reset` has the same values. What a
reset does to the port, the bus and the trace is the model's choice (logs 3 to 7). -/
def Obligations.ResetValues : Prop :=
  (∀ s : State, s.resetReq = true →
    step s = .next
      { phase := .idle, cmd := 0#32, arg := 0#32, mu := 0, pollCount := 0, latch := 0#32, respValid := false,
        respStatus := 0#3, respData := 0#32, respErr := none, outstanding := none, params := s.params,
        cmdPort := s.cmdPort, resetReq := false,
        bus := if s.outstanding.isSome then s.bus.discard else s.bus, trace := s.trace }) ∧
  (State.reset.phase = .idle ∧ State.reset.cmd = 0#32 ∧ State.reset.arg = 0#32 ∧ State.reset.mu = 0 ∧
    State.reset.pollCount = 0 ∧ State.reset.latch = 0#32 ∧ State.reset.respValid = false ∧
    State.reset.respStatus = 0#3 ∧ State.reset.respData = 0#32 ∧ State.reset.respErr = none ∧
    State.reset.params = ⟨100, 0, false, false⟩)

/-- 43_breakpoint.md section 1 (R186) and 70_reset_and_hazards.md section 1 (R230; decisions D11, D12): in FATAL
nothing changes in any number of steps, unless a reset is asserted, and then the block is IDLE. That FATAL has steps,
which change nothing, is the model's choice (log 1). -/
def Obligations.FatalLastsUntilReset : Prop :=
  ∀ s : State, s.phase = .fatal →
    (s.resetReq = false → ∀ n, runSteps n s = .next s) ∧
    (s.resetReq = true → ∃ s', step s = .next s' ∧ s'.phase = .idle)

/-- 70_reset_and_hazards.md section 4 (R246, decision D15; that waiting is a step that changes nothing is the
model's choice, log 4): a request that the bus does not answer leaves the block BUSY with that request in flight,
for any number of steps, with no transaction made and no response. -/
def Obligations.UnansweredRequestWaitsForever : Prop :=
  ∀ (i : Instr) (s : State) (r : BusRequest), s.Running i → dueRequest i s = some r → s.bus.answer r = none →
    ∀ n, runSteps (n + 1) s = .next { s with outstanding := some r }

/-- 10_state.md section 1 (R22, marked derived): of the block's registers only the response is carried from one
command into the next. Two idle states with the same ports, environment and response accept the same command into
the same state, whatever the other registers hold. -/
def Obligations.OnlyTheResponseOutlivesACommand : Prop :=
  ∀ s t : State, s.resetReq = false → t.resetReq = false → s.phase = .idle → t.phase = .idle →
    s.cmdPort ≠ none → s.cmdPort = t.cmdPort → s.params = t.params → s.bus = t.bus → s.trace = t.trace →
    s.respStatus = t.respStatus → s.respData = t.respData → s.respErr = t.respErr →
    step s = step t

/-! ### What every command leaves unchanged, and failures -/

/-- 10_state.md section 1 (R20, R21) and 20_memory.md section 4 (R68): the frame of every command's step. The latched
words, the parameters and the ports are unchanged; `latch` changes only in BPUNITS; the response only when the command
ends; and the bus sees at most one transaction, which is the request `dueRequest` computes at `mu`. The bus, the trace
and the cut into steps are the model's (logs 1, 3, 5). -/
def Obligations.ExecFrame : Prop :=
  ∀ (i : Instr) (s s' : State), exec i s = .next s' →
    s'.cmd = s.cmd ∧ s'.arg = s.arg ∧ s'.params = s.params ∧ s'.cmdPort = s.cmdPort ∧
    s'.resetReq = s.resetReq ∧
    (i ≠ .bpunits → s'.latch = s.latch) ∧
    (s.phase = .busy → s'.phase = .busy →
      s'.respValid = s.respValid ∧ s'.respStatus = s.respStatus ∧ s'.respData = s.respData ∧
      s'.respErr = s.respErr) ∧
    ((s'.trace = s.trace ∧ s'.bus = s.bus) ∨
      ∃ r a, dueRequest i s = some r ∧ s.bus.answer r = some (a, s'.bus) ∧ s'.trace = s.trace ++ [⟨r, a⟩] ∧
        s'.outstanding = none)

/-- 60_exceptions.md R201: whatever request a command has due, read or write, an error answer ends the command with
TRANSPORT and that error, unchanged. The bus, the trace and the cut into steps are the model's (logs 1, 3, 5), the
error a token (log 10). -/
def Obligations.TransportErrorIsForwarded : Prop :=
  ∀ (i : Instr) (s : State) (r : BusRequest) (e : TransportError) (b : Bus),
    dueRequest i s = some r → s.bus.answer r = some (.err e, b) →
    exec i s = .next { s with
      phase := .idle, respValid := true, respStatus := 2#3, respData := 0#32, respErr := some e,
      bus := b, outstanding := none, trace := s.trace ++ [⟨r, .err e⟩] }

/-- 60_exceptions.md R205: a command that ends with a status other than OK has performed `complete(status, 0, err)`
and is IDLE, or FATAL (43_breakpoint.md R186); the transactions already made stand; and the next step makes none. That
FATAL is a phase is the spec's decision D11; the trace is the model's (log 5). -/
def Obligations.FailureIsPrecise : Prop :=
  ∀ s s' : State, s.resetReq = false → s.phase = .busy → step s = .next s' → s'.phase ≠ .busy →
    s'.respStatus ≠ 0#3 →
    s'.respValid = true ∧ s'.respData = 0#32 ∧ (s'.respErr.isSome = true ↔ s'.respStatus = 2#3) ∧
    (s'.phase = .fatal ↔ s'.respStatus = 3#3 ∧ s.params.unsupportedFatal = true) ∧
    s.trace <+: s'.trace ∧
    ∀ s'', step s' = .next s'' → s''.trace = s'.trace

/-- 41_core_reg_transfer.md section 1 (R141): a poll waits for bit 16 or bit 17 of the Status/Control word, and every
poll starts with `poll_count` 0: when acceptance or a command's step puts `mu` on a poll, no count is carried over.
That these bits are S_REGRDY and S_HALT is general knowledge (log 11); the count is read step by step as the model
cuts a command (log 1). -/
def Obligations.EveryPollStartsFromZero : Prop :=
  (∀ w : Word, StatusBit.regrdy.test w = w.getLsbD 16 ∧ StatusBit.halt.test w = w.getLsbD 17) ∧
  (∀ c s, (accept c s).pollCount = 0) ∧
  ∀ (i : Instr) (s s' : State) (b : StatusBit), exec i s = .next s' → s'.mu ≠ s.mu →
    (commandSequence s'.params i).actions[s'.mu]? = some (.poll b) → s'.pollCount = 0

/-- 41_core_reg_transfer.md section 1 (R140, decisions D8, D9): a command at a poll of bit `b` whose count is 0. Reads
that show the bit clear keep it there and are counted; with `P_POLL_LIMIT` of them the command ends with TIMEOUT after
exactly those reads (none, if the limit is 0). The cut into steps, the bus and the trace are the model's (logs 1, 3,
5). The places of the status bits that the polls test are general knowledge (log 11). -/
def Obligations.PollMakesAtMostLimitReads : Prop :=
  ∀ (i : Instr) (s : State) (b : StatusBit) (ws : List Word) (rest : List BusAnswer),
    s.Running i → (commandSequence s.params i).actions[s.mu]? = some (.poll b) → s.pollCount = 0 →
    s.outstanding = none → AllClear b ws → s.bus = .script (okAnswers ws ++ rest) →
    (ws.length ≤ s.params.pollLimit →
      runSteps ws.length s =
        .next { s with pollCount := ws.length, bus := .script rest, trace := s.trace ++ statusReads ws }) ∧
    (ws.length = s.params.pollLimit →
      runSteps (ws.length + 1) s =
        .next (s.endedAfter s.mu ws.length (statusReads ws) rest .timeout 0#32 none))

/-! ### Core register transfer -/

/-- 41_core_reg_transfer.md R143: RDREG from its first step to its end, for every number of status reads and for each
failure. The cut into steps, the bus and the trace are the model's (logs 1, 3, 5). The places of the status bits that
the polls test are general knowledge (log 11). -/
def Obligations.RdregRunsItsSequence : Prop :=
  ∀ (reg : BitVec 5) (s : State), s.Running (.rdreg reg) → s.mu = 0 →
    let select : BusRequest := .write 0xE000EDF4#32 (reg.setWidth 32)
    let data : BusRequest := .read 0xE000EDF8#32
    (∀ e rest, s.bus = .script (.err e :: rest) →
      runSteps 1 s = .next (s.endedAfter 0 s.pollCount [⟨select, .err e⟩] rest .transport 0#32 (some e))) ∧
    (∀ a ws e rest, AllClear .regrdy ws → ws.length < s.params.pollLimit →
      s.bus = .script (.ok a :: (okAnswers ws ++ .err e :: rest)) →
      runSteps (ws.length + 2) s =
        .next (s.endedAfter 1 ws.length
          (⟨select, .ok a⟩ :: (statusReads ws ++ [⟨.read 0xE000EDF0#32, .err e⟩])) rest .transport 0#32 (some e))) ∧
    (∀ a ws rest, AllClear .regrdy ws → ws.length = s.params.pollLimit →
      s.bus = .script (.ok a :: (okAnswers ws ++ rest)) →
      runSteps (ws.length + 2) s =
        .next (s.endedAfter 1 ws.length (⟨select, .ok a⟩ :: statusReads ws) rest .timeout 0#32 none)) ∧
    (∀ a ws w e rest, AllClear .regrdy ws → StatusBit.regrdy.test w = true → ws.length < s.params.pollLimit →
      s.bus = .script (.ok a :: (okAnswers (ws ++ [w]) ++ .err e :: rest)) →
      runSteps (ws.length + 3) s =
        .next (s.endedAfter 2 (ws.length + 1)
          (⟨select, .ok a⟩ :: (statusReads (ws ++ [w]) ++ [⟨data, .err e⟩])) rest .transport 0#32 (some e))) ∧
    (∀ a ws w v rest, AllClear .regrdy ws → StatusBit.regrdy.test w = true → ws.length < s.params.pollLimit →
      s.bus = .script (.ok a :: (okAnswers (ws ++ [w]) ++ .ok v :: rest)) →
      runSteps (ws.length + 3) s =
        .next (s.endedAfter 3 (ws.length + 1)
          (⟨select, .ok a⟩ :: (statusReads (ws ++ [w]) ++ [⟨data, .ok v⟩])) rest .ok v none))

/-- 41_core_reg_transfer.md R143: RDREG's last transaction, the data read, ends it with OK and the word read; this is
the step in which it completes, with everything else unchanged. The cut into steps, the bus and the trace are the
model's (logs 1, 3, 5). -/
def Obligations.RdregCompletesWithTheDataWord : Prop :=
  ∀ (reg : BitVec 5) (s : State) (v : Word) (b : Bus), s.mu = 2 →
    s.bus.answer (.read 0xE000EDF8#32) = some (.ok v, b) →
    exec (.rdreg reg) s = .next { s with
      phase := .idle, mu := 3, respValid := true, respStatus := 0#3, respData := v, respErr := none,
      bus := b, outstanding := none, trace := s.trace ++ [⟨.read 0xE000EDF8#32, .ok v⟩] }

/-- 41_core_reg_transfer.md R144: WRREG from its first step to its end: select, poll, data, poll, for every number of
status reads in each poll and for each of the six failures. The cut into steps, the bus and the trace are the model's
(logs 1, 3, 5). The places of the status bits that the polls test are general knowledge (log 11). -/
def Obligations.WrregRunsItsSequence : Prop :=
  ∀ (reg : BitVec 5) (value : Word) (s : State), s.Running (.wrreg reg value) → s.mu = 0 →
    let select : BusRequest := .write 0xE000EDF4#32 (0x00010000#32 ||| reg.setWidth 32)
    let data : BusRequest := .write 0xE000EDF8#32 value
    (∀ e rest, s.bus = .script (.err e :: rest) →
      runSteps 1 s = .next (s.endedAfter 0 s.pollCount [⟨select, .err e⟩] rest .transport 0#32 (some e))) ∧
    (∀ a ws e rest, AllClear .regrdy ws → ws.length < s.params.pollLimit →
      s.bus = .script (.ok a :: (okAnswers ws ++ .err e :: rest)) →
      runSteps (ws.length + 2) s =
        .next (s.endedAfter 1 ws.length
          (⟨select, .ok a⟩ :: (statusReads ws ++ [⟨.read 0xE000EDF0#32, .err e⟩])) rest .transport 0#32 (some e))) ∧
    (∀ a ws rest, AllClear .regrdy ws → ws.length = s.params.pollLimit →
      s.bus = .script (.ok a :: (okAnswers ws ++ rest)) →
      runSteps (ws.length + 2) s =
        .next (s.endedAfter 1 ws.length (⟨select, .ok a⟩ :: statusReads ws) rest .timeout 0#32 none)) ∧
    (∀ a ws w e rest, AllClear .regrdy ws → StatusBit.regrdy.test w = true → ws.length < s.params.pollLimit →
      s.bus = .script (.ok a :: (okAnswers (ws ++ [w]) ++ .err e :: rest)) →
      runSteps (ws.length + 3) s =
        .next (s.endedAfter 2 (ws.length + 1)
          (⟨select, .ok a⟩ :: (statusReads (ws ++ [w]) ++ [⟨data, .err e⟩])) rest .transport 0#32 (some e))) ∧
    (∀ a ws w a' ws' e rest, AllClear .regrdy ws → StatusBit.regrdy.test w = true →
      ws.length < s.params.pollLimit → AllClear .regrdy ws' → ws'.length < s.params.pollLimit →
      s.bus = .script (.ok a :: (okAnswers (ws ++ [w]) ++ .ok a' :: (okAnswers ws' ++ .err e :: rest))) →
      runSteps (ws.length + ws'.length + 4) s =
        .next (s.endedAfter 3 ws'.length
          (⟨select, .ok a⟩ :: (statusReads (ws ++ [w]) ++
            ⟨data, .ok a'⟩ :: (statusReads ws' ++ [⟨.read 0xE000EDF0#32, .err e⟩])))
          rest .transport 0#32 (some e))) ∧
    (∀ a ws w a' ws' rest, AllClear .regrdy ws → StatusBit.regrdy.test w = true →
      ws.length < s.params.pollLimit → AllClear .regrdy ws' → ws'.length = s.params.pollLimit →
      s.bus = .script (.ok a :: (okAnswers (ws ++ [w]) ++ .ok a' :: (okAnswers ws' ++ rest))) →
      runSteps (ws.length + ws'.length + 4) s =
        .next (s.endedAfter 3 ws'.length
          (⟨select, .ok a⟩ :: (statusReads (ws ++ [w]) ++ ⟨data, .ok a'⟩ :: statusReads ws'))
          rest .timeout 0#32 none)) ∧
    (∀ a ws w a' ws' w' rest, AllClear .regrdy ws → StatusBit.regrdy.test w = true →
      ws.length < s.params.pollLimit → AllClear .regrdy ws' → StatusBit.regrdy.test w' = true →
      ws'.length < s.params.pollLimit →
      s.bus = .script (.ok a :: (okAnswers (ws ++ [w]) ++ .ok a' :: (okAnswers (ws' ++ [w']) ++ rest))) →
      runSteps (ws.length + ws'.length + 4) s =
        .next (s.endedAfter 4 (ws'.length + 1)
          (⟨select, .ok a⟩ :: (statusReads (ws ++ [w]) ++ ⟨data, .ok a'⟩ :: statusReads (ws' ++ [w'])))
          rest .ok 0#32 none))

/-- 41_core_reg_transfer.md R144: WRREG completes in the status read of its second poll that shows S_REGRDY, with OK
and data 0 and everything else unchanged. The cut into steps, the bus and the trace are the model's (logs 1, 3, 5).
The places of the status bits that the polls test are general knowledge (log 11). -/
def Obligations.WrregCompletesOnItsSecondPoll : Prop :=
  ∀ (reg : BitVec 5) (value : Word) (s : State) (w : Word) (b : Bus), s.mu = 3 →
    s.pollCount < s.params.pollLimit → s.bus.answer (.read 0xE000EDF0#32) = some (.ok w, b) →
    StatusBit.regrdy.test w = true →
    exec (.wrreg reg value) s = .next { s with
      phase := .idle, mu := 4, pollCount := s.pollCount + 1, respValid := true, respStatus := 0#3,
      respData := 0#32, respErr := none, bus := b, outstanding := none,
      trace := s.trace ++ [⟨.read 0xE000EDF0#32, .ok w⟩] }

/-- 41_core_reg_transfer.md section 3 (R145, the spec's decision D14 and general knowledge, log 11 and 12): BASICREG
ends at once with the selected member of R0, R1, R2, R3, R9, PC, LR, SP, without a transaction and with everything
else unchanged. That it takes one step is the model's reading (log 1). -/
def Obligations.BasicregAnswersTheTable : Prop :=
  ∀ (sel : BitVec 3) (s : State), s.mu = 0 →
    ∃ d : Word, [0, 1, 2, 3, 9, 15, 14, 13][sel.toNat]? = some d.toNat ∧
      exec (.basicreg sel) s = .next { s with
        phase := .idle, respValid := true, respStatus := 0#3, respData := d, respErr := none }

/-! ### Execution control -/

/-- 42_exec_control.md R164: RUN writes `0xA05F_0000` once, makes no read, and ends with OK and data 0, or with
TRANSPORT if the write fails; everything else is unchanged. The cut into steps, the bus and the trace are the model's
(logs 1, 3, 5). -/
def Obligations.RunWritesOnceAndCompletes : Prop :=
  ∀ (s : State) (b : Bus), s.mu = 0 →
    (∀ a, s.bus.answer (.write 0xE000EDF0#32 0xA05F0000#32) = some (.ok a, b) →
      exec .run s = .next { s with
        phase := .idle, mu := 1, respValid := true, respStatus := 0#3, respData := 0#32, respErr := none,
        bus := b, outstanding := none, trace := s.trace ++ [⟨.write 0xE000EDF0#32 0xA05F0000#32, .ok a⟩] }) ∧
    (∀ e, s.bus.answer (.write 0xE000EDF0#32 0xA05F0000#32) = some (.err e, b) →
      exec .run s = .next { s with
        phase := .idle, respValid := true, respStatus := 2#3, respData := 0#32, respErr := some e,
        bus := b, outstanding := none, trace := s.trace ++ [⟨.write 0xE000EDF0#32 0xA05F0000#32, .err e⟩] })

/-- 42_exec_control.md R162: the steps of WAITH. A status read that shows S_HALT ends it with OK; one that does not is
counted and the poll goes on; an error is TRANSPORT; with no read left it is TIMEOUT. WAITH writes nothing. The cut
into steps, the bus and the trace are the model's (logs 1, 3, 5). The places of the status bits that the polls test
are general knowledge (log 11). -/
def Obligations.WaithObservesTheHaltedBit : Prop :=
  ∀ (s : State), s.mu = 0 →
    (s.params.pollLimit ≤ s.pollCount →
      exec .waith s = .next { s with
        phase := .idle, respValid := true, respStatus := 1#3, respData := 0#32, respErr := none }) ∧
    (s.pollCount < s.params.pollLimit →
      (∀ w b, s.bus.answer (.read 0xE000EDF0#32) = some (.ok w, b) → StatusBit.halt.test w = true →
        exec .waith s = .next { s with
          phase := .idle, mu := 1, pollCount := s.pollCount + 1, respValid := true, respStatus := 0#3,
          respData := 0#32, respErr := none, bus := b, outstanding := none,
          trace := s.trace ++ [⟨.read 0xE000EDF0#32, .ok w⟩] }) ∧
      (∀ w b, s.bus.answer (.read 0xE000EDF0#32) = some (.ok w, b) → StatusBit.halt.test w = false →
        exec .waith s = .next { s with
          pollCount := s.pollCount + 1, bus := b, outstanding := none,
          trace := s.trace ++ [⟨.read 0xE000EDF0#32, .ok w⟩] }) ∧
      (∀ e b, s.bus.answer (.read 0xE000EDF0#32) = some (.err e, b) →
        exec .waith s = .next { s with
          phase := .idle, respValid := true, respStatus := 2#3, respData := 0#32, respErr := some e,
          bus := b, outstanding := none, trace := s.trace ++ [⟨.read 0xE000EDF0#32, .err e⟩] }))

/-- 42_exec_control.md R163: HALT from its first step to its end. S_HALT of the words read is not constrained. The cut
into steps, the bus and the trace are the model's (logs 1, 3, 5). The word `0xA05F_0003`, the PC's index 15 and the
place of the status bit that the poll tests are general knowledge (log 11). -/
def Obligations.HaltRunsItsSequence : Prop :=
  ∀ s : State, s.Running .halt → s.mu = 0 →
    let control : BusRequest := .write 0xE000EDF0#32 0xA05F0003#32
    let select : BusRequest := .write 0xE000EDF4#32 0x0000000F#32
    let data : BusRequest := .read 0xE000EDF8#32
    (∀ e rest, s.bus = .script (.err e :: rest) →
      runSteps 1 s = .next (s.endedAfter 0 s.pollCount [⟨control, .err e⟩] rest .transport 0#32 (some e))) ∧
    (∀ c e rest, s.bus = .script (.ok c :: .err e :: rest) →
      runSteps 2 s =
        .next (s.endedAfter 1 s.pollCount [⟨control, .ok c⟩, ⟨select, .err e⟩] rest .transport 0#32 (some e))) ∧
    (∀ c a ws e rest, AllClear .regrdy ws → ws.length < s.params.pollLimit →
      s.bus = .script (.ok c :: .ok a :: (okAnswers ws ++ .err e :: rest)) →
      runSteps (ws.length + 3) s =
        .next (s.endedAfter 2 ws.length
          (⟨control, .ok c⟩ :: ⟨select, .ok a⟩ :: (statusReads ws ++ [⟨.read 0xE000EDF0#32, .err e⟩]))
          rest .transport 0#32 (some e))) ∧
    (∀ c a ws rest, AllClear .regrdy ws → ws.length = s.params.pollLimit →
      s.bus = .script (.ok c :: .ok a :: (okAnswers ws ++ rest)) →
      runSteps (ws.length + 3) s =
        .next (s.endedAfter 2 ws.length (⟨control, .ok c⟩ :: ⟨select, .ok a⟩ :: statusReads ws)
          rest .timeout 0#32 none)) ∧
    (∀ c a ws w e rest, AllClear .regrdy ws → StatusBit.regrdy.test w = true → ws.length < s.params.pollLimit →
      s.bus = .script (.ok c :: .ok a :: (okAnswers (ws ++ [w]) ++ .err e :: rest)) →
      runSteps (ws.length + 4) s =
        .next (s.endedAfter 3 (ws.length + 1)
          (⟨control, .ok c⟩ :: ⟨select, .ok a⟩ :: (statusReads (ws ++ [w]) ++ [⟨data, .err e⟩]))
          rest .transport 0#32 (some e))) ∧
    (∀ c a ws w v rest, AllClear .regrdy ws → StatusBit.regrdy.test w = true → ws.length < s.params.pollLimit →
      s.bus = .script (.ok c :: .ok a :: (okAnswers (ws ++ [w]) ++ .ok v :: rest)) →
      runSteps (ws.length + 4) s =
        .next (s.endedAfter 4 (ws.length + 1)
          (⟨control, .ok c⟩ :: ⟨select, .ok a⟩ :: (statusReads (ws ++ [w]) ++ [⟨data, .ok v⟩]))
          rest .ok v none))

/-- 42_exec_control.md R163: HALT completes in its data read, with OK and the word read, whatever S_HALT is, and
everything else unchanged. The cut into steps, the bus and the trace are the model's (logs 1, 3, 5). -/
def Obligations.HaltCompletesWithTheWordRead : Prop :=
  ∀ (s : State) (v : Word) (b : Bus), s.mu = 3 →
    s.bus.answer (.read 0xE000EDF8#32) = some (.ok v, b) →
    exec .halt s = .next { s with
      phase := .idle, mu := 4, respValid := true, respStatus := 0#3, respData := v, respErr := none,
      bus := b, outstanding := none, trace := s.trace ++ [⟨.read 0xE000EDF8#32, .ok v⟩] }

/-- 42_exec_control.md R165: STEP from its first step to its end when it succeeds, and its two polls' failures by
TIMEOUT. The poll of S_HALT takes the first read that shows it. The cut into steps, the bus and the trace are the
model's (logs 1, 3, 5). The word `0xA05F_000D`, the PC's index 15 and the places of the status bits that the polls
test are general knowledge (log 11). -/
def Obligations.StepRunsItsSequence : Prop :=
  ∀ s : State, s.Running .step → s.mu = 0 →
    let control : BusRequest := .write 0xE000EDF0#32 0xA05F000D#32
    let select : BusRequest := .write 0xE000EDF4#32 0x0000000F#32
    let data : BusRequest := .read 0xE000EDF8#32
    (∀ c hs rest, AllClear .halt hs → hs.length = s.params.pollLimit →
      s.bus = .script (.ok c :: (okAnswers hs ++ rest)) →
      runSteps (hs.length + 2) s =
        .next (s.endedAfter 1 hs.length (⟨control, .ok c⟩ :: statusReads hs) rest .timeout 0#32 none)) ∧
    (∀ c hs h a ws rest, AllClear .halt hs → StatusBit.halt.test h = true → hs.length < s.params.pollLimit →
      AllClear .regrdy ws → ws.length = s.params.pollLimit →
      s.bus = .script (.ok c :: (okAnswers (hs ++ [h]) ++ .ok a :: (okAnswers ws ++ rest))) →
      runSteps (hs.length + ws.length + 4) s =
        .next (s.endedAfter 3 ws.length
          (⟨control, .ok c⟩ :: (statusReads (hs ++ [h]) ++ ⟨select, .ok a⟩ :: statusReads ws))
          rest .timeout 0#32 none)) ∧
    (∀ c hs h a ws w v rest, AllClear .halt hs → StatusBit.halt.test h = true → hs.length < s.params.pollLimit →
      AllClear .regrdy ws → StatusBit.regrdy.test w = true → ws.length < s.params.pollLimit →
      s.bus = .script (.ok c :: (okAnswers (hs ++ [h]) ++ .ok a :: (okAnswers (ws ++ [w]) ++ .ok v :: rest))) →
      runSteps (hs.length + ws.length + 5) s =
        .next (s.endedAfter 5 (ws.length + 1)
          (⟨control, .ok c⟩ :: (statusReads (hs ++ [h]) ++
            ⟨select, .ok a⟩ :: (statusReads (ws ++ [w]) ++ [⟨data, .ok v⟩])))
          rest .ok v none))

/-- 42_exec_control.md section 2 (R165): STEP completes in its data read, with OK and the word read, and everything
else unchanged. The cut into steps, the bus and the trace are the model's (logs 1, 3, 5). -/
def Obligations.StepCompletesWithTheWordRead : Prop :=
  ∀ (s : State) (v : Word) (b : Bus), s.mu = 4 →
    s.bus.answer (.read 0xE000EDF8#32) = some (.ok v, b) →
    exec .step s = .next { s with
      phase := .idle, mu := 5, respValid := true, respStatus := 0#3, respData := v, respErr := none,
      bus := b, outstanding := none, trace := s.trace ++ [⟨.read 0xE000EDF8#32, .ok v⟩] }

/-! ### Breakpoint unit -/

/-- 43_breakpoint.md R180: BPUNITS from its first step to its end. The count is bits 7:4 of the Breakpoint Control
word read before the poll, and the poll is always made (R181). The cut into steps, the bus and the trace are the
model's (logs 1, 3, 5). The places of the status bits that the polls test are general knowledge (log 11). -/
def Obligations.BpunitsRunsItsSequence : Prop :=
  ∀ s : State, s.Running .bpunits → s.mu = 0 →
    let control : BusRequest := .read 0xE0002000#32
    (∀ e rest, s.bus = .script (.err e :: rest) →
      runSteps 1 s = .next (s.endedAfter 0 s.pollCount [⟨control, .err e⟩] rest .transport 0#32 (some e))) ∧
    (∀ c ws e rest, AllClear .regrdy ws → ws.length < s.params.pollLimit →
      s.bus = .script (.ok c :: (okAnswers ws ++ .err e :: rest)) →
      runSteps (ws.length + 2) s =
        .next { s.endedAfter 1 ws.length
          (⟨control, .ok c⟩ :: (statusReads ws ++ [⟨.read 0xE000EDF0#32, .err e⟩])) rest .transport 0#32 (some e)
          with latch := c }) ∧
    (∀ c ws rest, AllClear .regrdy ws → ws.length = s.params.pollLimit →
      s.bus = .script (.ok c :: (okAnswers ws ++ rest)) →
      runSteps (ws.length + 2) s =
        .next { s.endedAfter 1 ws.length (⟨control, .ok c⟩ :: statusReads ws) rest .timeout 0#32 none
          with latch := c }) ∧
    (∀ c ws w rest, AllClear .regrdy ws → StatusBit.regrdy.test w = true → ws.length < s.params.pollLimit →
      s.bus = .script (.ok c :: (okAnswers (ws ++ [w]) ++ rest)) →
      runSteps (ws.length + 2) s =
        .next { s.endedAfter 2 (ws.length + 1) (⟨control, .ok c⟩ :: statusReads (ws ++ [w])) rest .ok
            ((c.extractLsb' 4 4).setWidth 32) none
          with latch := c })

/-- 43_breakpoint.md section 1 (R180): BPUNITS completes in the status read that shows S_REGRDY, with OK and bits 7:4
of the latched word, and everything else unchanged. The cut into steps, the bus and the trace are the model's (logs 1,
3, 5). The places of the status bits that the polls test are general knowledge (log 11). -/
def Obligations.BpunitsCompletesWithTheCount : Prop :=
  ∀ (s : State) (w : Word) (b : Bus), s.mu = 1 → s.pollCount < s.params.pollLimit →
    s.bus.answer (.read 0xE000EDF0#32) = some (.ok w, b) → StatusBit.regrdy.test w = true →
    exec .bpunits s = .next { s with
      phase := .idle, mu := 2, pollCount := s.pollCount + 1, respValid := true, respStatus := 0#3,
      respData := (s.latch.extractLsb' 4 4).setWidth 32, respErr := none, bus := b, outstanding := none,
      trace := s.trace ++ [⟨.read 0xE000EDF0#32, .ok w⟩] }

/-- 43_breakpoint.md section 1 (R182, decision D10): BPEN writes KEY and the enable bit to Breakpoint Control (KEY 0
under `P_BP_SOURCE_COMPAT`) and goes on to poll S_HALT with a count of 0; the latched words, the response and every
other field are unchanged by the write. The cut into steps, the bus and the trace are the model's (logs 1, 3, 5). -/
def Obligations.BpenWritesTheControlRegister : Prop :=
  ∀ (enable : Bool) (s : State) (a : Word) (b : Bus) (w : Word), s.mu = 0 →
    w = (if s.params.bpSourceCompat then bit enable else 2#32 ||| bit enable) →
    s.bus.answer (.write 0xE0002000#32 w) = some (.ok a, b) →
    exec (.bpen enable) s = .next { s with
      mu := 1, pollCount := 0, bus := b, outstanding := none,
      trace := s.trace ++ [⟨.write 0xE0002000#32 w, .ok a⟩] }

/-- 43_breakpoint.md section 1 (R183, decision D10): SETBP writes its comparator word to `0xE000_2008`, or under
`P_BP_SOURCE_COMPAT` the source's word to `0xE000_2000`, and goes on to poll S_HALT with a count of 0; every other
field is unchanged by the write. The cut into steps, the bus and the trace are the model's (logs 1, 3, 5). -/
def Obligations.SetbpWritesTheComparator : Prop :=
  ∀ (address : Word) (s : State) (a : Word) (b : Bus) (dest w : Word), s.mu = 0 →
    dest = (if s.params.bpSourceCompat then 0xE0002000#32 else 0xE0002008#32) →
    w = (if s.params.bpSourceCompat then 0xC0000001#32 ||| (address &&& 0x1C000000#32) ||| 0x03FFFFFC#32
      else 0xC0000001#32 ||| (address &&& 0x1FFFFFFC#32)) →
    s.bus.answer (.write dest w) = some (.ok a, b) →
    exec (.setbp address) s = .next { s with
      mu := 1, pollCount := 0, bus := b, outstanding := none, trace := s.trace ++ [⟨.write dest w, .ok a⟩] }

/-- 43_breakpoint.md section 1 (R182, R183, decision D10): BPEN and SETBP complete in the status read that shows
S_HALT, with OK and data 0 and everything else unchanged. The cut into steps, the bus and the trace are the model's
(logs 1, 3, 5). The places of the status bits that the polls test are general knowledge (log 11). -/
def Obligations.BpenAndSetbpCompleteWhenHalted : Prop :=
  ∀ (s : State) (w : Word) (b : Bus), s.mu = 1 → s.pollCount < s.params.pollLimit →
    s.bus.answer (.read 0xE000EDF0#32) = some (.ok w, b) → StatusBit.halt.test w = true →
    ∃ t : State,
      t = { s with
        phase := .idle, mu := 2, pollCount := s.pollCount + 1, respValid := true, respStatus := 0#3,
        respData := 0#32, respErr := none, bus := b, outstanding := none,
        trace := s.trace ++ [⟨.read 0xE000EDF0#32, .ok w⟩] } ∧
      (∀ enable, exec (.bpen enable) s = .next t) ∧ (∀ address, exec (.setbp address) s = .next t)

/-- 43_breakpoint.md section 1 (R182, R183, decision D10): BPEN and SETBP whose poll never shows S_HALT end with
TIMEOUT after the write and exactly `P_POLL_LIMIT` status reads. The cut into steps, the bus and the trace are the
model's (logs 1, 3, 5). The places of the status bits that the polls test are general knowledge (log 11). -/
def Obligations.BreakpointWritesTimeOut : Prop :=
  ∀ (i : Instr) (s : State) (dest word : Word) (a : Word) (ws : List Word) (rest : List BusAnswer),
    (∃ e, i = .bpen e) ∨ (∃ address, i = .setbp address) →
    s.Running i → s.mu = 0 → dueRequest i s = some (.write dest word) →
    AllClear .halt ws → ws.length = s.params.pollLimit → s.bus = .script (.ok a :: (okAnswers ws ++ rest)) →
    runSteps (ws.length + 2) s =
      .next (s.endedAfter 1 ws.length (⟨.write dest word, .ok a⟩ :: statusReads ws) rest .timeout 0#32 none)

/-- 43_breakpoint.md section 1 (R185, R186, decision D11): ENBP and DISBP end at once with UNSUPPORTED, whatever the
address, without a bus transaction; the phase is then FATAL exactly under `P_UNSUPPORTED_FATAL`; everything else is
unchanged. That it takes one step is the model's reading (log 1). -/
def Obligations.EnbpAndDisbpAreUnsupported : Prop :=
  ∀ (address : Word) (s : State), s.mu = 0 →
    ∃ t : State,
      t = { s with
        phase := if s.params.unsupportedFatal then .fatal else .idle
        respValid := true, respStatus := 3#3, respData := 0#32, respErr := none } ∧
      exec (.enbp address) s = .next t ∧ exec (.disbp address) s = .next t

/-! ### Invariants -/

/-- The invariant of Safety.lean (10_state.md section 1, 20_memory.md section 5, 30_encoding.md section 3,
60_exceptions.md section 11): every step of the block keeps it, from every state that has it. -/
def Obligations.EveryStepKeepsTheInvariant : Prop :=
  ∀ s s' : State, s.Inv → step s = .next s' → s'.Inv

/-- The machine right after reset has the invariant (10_state.md section 8). -/
def Obligations.ResetMeetsTheInvariant : Prop := State.reset.Inv

/-- The host's moves (60_exceptions.md section 11) keep the invariant. -/
def Obligations.HostMovesKeepTheInvariant : Prop :=
  ∀ (m : HostMove) (s s' : State), s.Inv → hostMove m s = some s' → s'.Inv

/-- In every state with the invariant a step answers a next state: no failure stops the block (60_exceptions.md
section 3), and the model's fault is never met, the position past a sequence's end (the model's choice, log 9). For a
block that waits for an answer, 70_reset_and_hazards.md section 4 (R246, decision D15) asks for a state with no step;
that it has a next state, by a waiting step that makes no transaction, is the model's choice (log 4). So is the step
that changes nothing of a block in FATAL, or in IDLE with no command (log 1). -/
def Obligations.TheBlockNeverStops : Prop :=
  ∀ s : State, s.Inv → ∃ s', step s = .next s'

/-! ### The target the sequences are designed for -/

/-- 10_state.md R29, of the reference target: a Status/Control write changes the target only if bits 31:16 of the
same write are `0xA05F`; any other write, whatever was written before, changes nothing. -/
def Obligations.KeylessControlWritesAreIgnored : Prop :=
  ∀ (t : RefTarget) (w : Word), w >>> 16 ≠ 0xA05F#32 → t.write 0xE000EDF0#32 w = t

/-- 20_memory.md section 6 (R76 to R78, the spec's fixture, decision D17) and 42_exec_control.md section 2: HALT on
the reference target ends with OK and the target's PC after four transactions, and leaves the target halted with every
core register as it was. The cut into steps, the bus and the trace are the model's (logs 1, 3, 5). The bit positions
and register indices are general knowledge (log 11). -/
def Obligations.HaltOnTheReferenceTarget : Prop :=
  ∀ (s : State) (t : RefTarget), s.Running .halt → s.mu = 0 → 0 < s.params.pollLimit → s.bus = .reference t →
    ∃ (s' : State) (t' : RefTarget), runSteps 4 s = .next s' ∧ s'.bus = .reference t' ∧ s'.phase = .idle ∧
      s'.respStatus = 0#3 ∧ s'.respData = t.getCore 15#5 ∧ s'.trace.length = s.trace.length + 4 ∧
      t'.halted = true ∧ t'.core = t.core

/-- 20_memory.md section 6 (R76 to R78, decision D17) and section 3 (R67 (c)): WRREG on the reference target ends with
OK, and the target's core register is the value while every other core register is as it was. The cut into steps, the
bus and the trace are the model's (logs 1, 3, 5). The bit positions and register indices are general knowledge (log
11). -/
def Obligations.WrregOnTheReferenceTarget : Prop :=
  ∀ (reg : BitVec 5) (value : Word) (s : State) (t : RefTarget), s.Running (.wrreg reg value) → s.mu = 0 →
    0 < s.params.pollLimit → s.bus = .reference t →
    ∃ (s' : State) (t' : RefTarget), runSteps 4 s = .next s' ∧ s'.bus = .reference t' ∧ s'.phase = .idle ∧
      s'.respStatus = 0#3 ∧ s'.respData = 0#32 ∧ t'.getCore reg = value ∧ t'.halted = t.halted ∧
      ∀ other, other ≠ reg → t'.getCore other = t.getCore other

/-- 20_memory.md section 6 (R76 to R78, decision D17): STEP on a halted reference target ends with OK and the PC after
one step, two more than before, with the target halted and every other core register as it was. The cut into steps,
the bus and the trace are the model's (logs 1, 3, 5). The bit positions and register indices are general knowledge
(log 11). -/
def Obligations.StepOnTheReferenceTarget : Prop :=
  ∀ (s : State) (t : RefTarget), s.Running .step → s.mu = 0 → 0 < s.params.pollLimit → s.bus = .reference t →
    t.halted = true →
    ∃ (s' : State) (t' : RefTarget), runSteps 5 s = .next s' ∧ s'.bus = .reference t' ∧ s'.phase = .idle ∧
      s'.respStatus = 0#3 ∧ s'.respData = t.getCore 15#5 + 2#32 ∧ t'.halted = true ∧ t'.maskints = true ∧
      t'.getCore 15#5 = t.getCore 15#5 + 2#32 ∧
      ∀ other, other ≠ 15#5 → t'.getCore other = t.getCore other

/-! ### The host -/

/-- 60_exceptions.md section 11 (R217, decision D2; the port and the answer as fields are the model's, logs 4 and 6):
the host presents a command exactly when the phase is IDLE and the port is free, answers exactly a request in flight
that it has not answered yet, whatever the bus, and resets at any time; each changes only what is said here; and it
gets the response exactly when `resp_valid`. -/
def Obligations.HostMovesFollowTheTable : Prop :=
  ∀ s : State,
    (∀ c, s.phase = .idle → s.cmdPort = none → hostMove (.present c) s = some { s with cmdPort := some c }) ∧
    (∀ c, s.phase ≠ .idle ∨ s.cmdPort ≠ none → hostMove (.present c) s = none) ∧
    (∀ a, s.outstanding ≠ none → s.bus.hasGiven = false →
      hostMove (.answer a) s = some { s with bus := .given a s.bus.discard }) ∧
    (∀ a, s.outstanding = none ∨ s.bus.hasGiven = true → hostMove (.answer a) s = none) ∧
    hostMove .reset s = some { s with resetReq := true } ∧
    (s.respValid = true → hostResponse s = some ⟨s.respStatus, s.respData, s.respErr⟩) ∧
    (s.respValid = false → hostResponse s = none)

/-- 60_exceptions.md section 11 (R217) and 20_memory.md section 1 (R60): while a command waits for the answer to a
request, the host may answer it with any word or error, on every bus, and the next step makes that transaction with
exactly that answer; nothing is then in flight. The cut into steps, the bus and the trace are the model's (logs 1, 3,
4, 5). -/
def Obligations.HostAnswerIsTaken : Prop :=
  ∀ (i : Instr) (s : State) (r : BusRequest) (a : BusAnswer), s.Running i → dueRequest i s = some r →
    s.outstanding = some r → s.bus.hasGiven = false →
    ∃ t s' : State, hostMove (.answer a) s = some t ∧ step t = .next s' ∧ s'.trace = s.trace ++ [⟨r, a⟩] ∧
      s'.outstanding = none ∧ s'.bus = s.bus.discard
end

