-- ==== Sys2Proof/Laws/State.lean ====
section
/-!
SUPPORT. One lemma per field per update of the state, each true by `rfl`: no later proof unfolds an update.
-/

namespace Sys2Proof.Machine

@[simp] theorem complete_phase (st : Status) (d : Word) (e : Option TransportError) (s : State) :
    (complete st d e s).phase = .idle := rfl
@[simp] theorem complete_cmd (st : Status) (d : Word) (e : Option TransportError) (s : State) :
    (complete st d e s).cmd = s.cmd := rfl
@[simp] theorem complete_arg (st : Status) (d : Word) (e : Option TransportError) (s : State) :
    (complete st d e s).arg = s.arg := rfl
@[simp] theorem complete_mu (st : Status) (d : Word) (e : Option TransportError) (s : State) :
    (complete st d e s).mu = s.mu := rfl
@[simp] theorem complete_pollCount (st : Status) (d : Word) (e : Option TransportError) (s : State) :
    (complete st d e s).pollCount = s.pollCount := rfl
@[simp] theorem complete_latch (st : Status) (d : Word) (e : Option TransportError) (s : State) :
    (complete st d e s).latch = s.latch := rfl
@[simp] theorem complete_respValid (st : Status) (d : Word) (e : Option TransportError) (s : State) :
    (complete st d e s).respValid = true := rfl
@[simp] theorem complete_respStatus (st : Status) (d : Word) (e : Option TransportError) (s : State) :
    (complete st d e s).respStatus = st.code := rfl
@[simp] theorem complete_respData (st : Status) (d : Word) (e : Option TransportError) (s : State) :
    (complete st d e s).respData = d := rfl
@[simp] theorem complete_respErr (st : Status) (d : Word) (e : Option TransportError) (s : State) :
    (complete st d e s).respErr = e := rfl
@[simp] theorem complete_outstanding (st : Status) (d : Word) (e : Option TransportError) (s : State) :
    (complete st d e s).outstanding = s.outstanding := rfl
@[simp] theorem complete_params (st : Status) (d : Word) (e : Option TransportError) (s : State) :
    (complete st d e s).params = s.params := rfl
@[simp] theorem complete_cmdPort (st : Status) (d : Word) (e : Option TransportError) (s : State) :
    (complete st d e s).cmdPort = s.cmdPort := rfl
@[simp] theorem complete_resetReq (st : Status) (d : Word) (e : Option TransportError) (s : State) :
    (complete st d e s).resetReq = s.resetReq := rfl
@[simp] theorem complete_bus (st : Status) (d : Word) (e : Option TransportError) (s : State) :
    (complete st d e s).bus = s.bus := rfl
@[simp] theorem complete_trace (st : Status) (d : Word) (e : Option TransportError) (s : State) :
    (complete st d e s).trace = s.trace := rfl

@[simp] theorem raiseUnsupported_phase (s : State) :
    (raiseUnsupported s).phase = if s.params.unsupportedFatal then .fatal else .idle := rfl
@[simp] theorem raiseUnsupported_cmd (s : State) :
    (raiseUnsupported s).cmd = s.cmd := rfl
@[simp] theorem raiseUnsupported_arg (s : State) :
    (raiseUnsupported s).arg = s.arg := rfl
@[simp] theorem raiseUnsupported_mu (s : State) :
    (raiseUnsupported s).mu = s.mu := rfl
@[simp] theorem raiseUnsupported_pollCount (s : State) :
    (raiseUnsupported s).pollCount = s.pollCount := rfl
@[simp] theorem raiseUnsupported_latch (s : State) :
    (raiseUnsupported s).latch = s.latch := rfl
@[simp] theorem raiseUnsupported_respValid (s : State) :
    (raiseUnsupported s).respValid = true := rfl
@[simp] theorem raiseUnsupported_respStatus (s : State) :
    (raiseUnsupported s).respStatus = Status.code .unsupported := rfl
@[simp] theorem raiseUnsupported_respData (s : State) :
    (raiseUnsupported s).respData = 0#32 := rfl
@[simp] theorem raiseUnsupported_respErr (s : State) :
    (raiseUnsupported s).respErr = none := rfl
@[simp] theorem raiseUnsupported_outstanding (s : State) :
    (raiseUnsupported s).outstanding = s.outstanding := rfl
@[simp] theorem raiseUnsupported_params (s : State) :
    (raiseUnsupported s).params = s.params := rfl
@[simp] theorem raiseUnsupported_cmdPort (s : State) :
    (raiseUnsupported s).cmdPort = s.cmdPort := rfl
@[simp] theorem raiseUnsupported_resetReq (s : State) :
    (raiseUnsupported s).resetReq = s.resetReq := rfl
@[simp] theorem raiseUnsupported_bus (s : State) :
    (raiseUnsupported s).bus = s.bus := rfl
@[simp] theorem raiseUnsupported_trace (s : State) :
    (raiseUnsupported s).trace = s.trace := rfl

@[simp] theorem recordTransaction_phase (r : BusRequest) (a : BusAnswer) (b : Bus) (s : State) :
    (recordTransaction r a b s).phase = s.phase := rfl
@[simp] theorem recordTransaction_cmd (r : BusRequest) (a : BusAnswer) (b : Bus) (s : State) :
    (recordTransaction r a b s).cmd = s.cmd := rfl
@[simp] theorem recordTransaction_arg (r : BusRequest) (a : BusAnswer) (b : Bus) (s : State) :
    (recordTransaction r a b s).arg = s.arg := rfl
@[simp] theorem recordTransaction_mu (r : BusRequest) (a : BusAnswer) (b : Bus) (s : State) :
    (recordTransaction r a b s).mu = s.mu := rfl
@[simp] theorem recordTransaction_pollCount (r : BusRequest) (a : BusAnswer) (b : Bus) (s : State) :
    (recordTransaction r a b s).pollCount = s.pollCount := rfl
@[simp] theorem recordTransaction_latch (r : BusRequest) (a : BusAnswer) (b : Bus) (s : State) :
    (recordTransaction r a b s).latch = s.latch := rfl
@[simp] theorem recordTransaction_respValid (r : BusRequest) (a : BusAnswer) (b : Bus) (s : State) :
    (recordTransaction r a b s).respValid = s.respValid := rfl
@[simp] theorem recordTransaction_respStatus (r : BusRequest) (a : BusAnswer) (b : Bus) (s : State) :
    (recordTransaction r a b s).respStatus = s.respStatus := rfl
@[simp] theorem recordTransaction_respData (r : BusRequest) (a : BusAnswer) (b : Bus) (s : State) :
    (recordTransaction r a b s).respData = s.respData := rfl
@[simp] theorem recordTransaction_respErr (r : BusRequest) (a : BusAnswer) (b : Bus) (s : State) :
    (recordTransaction r a b s).respErr = s.respErr := rfl
@[simp] theorem recordTransaction_outstanding (r : BusRequest) (a : BusAnswer) (b : Bus) (s : State) :
    (recordTransaction r a b s).outstanding = none := rfl
@[simp] theorem recordTransaction_params (r : BusRequest) (a : BusAnswer) (b : Bus) (s : State) :
    (recordTransaction r a b s).params = s.params := rfl
@[simp] theorem recordTransaction_cmdPort (r : BusRequest) (a : BusAnswer) (b : Bus) (s : State) :
    (recordTransaction r a b s).cmdPort = s.cmdPort := rfl
@[simp] theorem recordTransaction_resetReq (r : BusRequest) (a : BusAnswer) (b : Bus) (s : State) :
    (recordTransaction r a b s).resetReq = s.resetReq := rfl
@[simp] theorem recordTransaction_bus (r : BusRequest) (a : BusAnswer) (b : Bus) (s : State) :
    (recordTransaction r a b s).bus = b := rfl
@[simp] theorem recordTransaction_trace (r : BusRequest) (a : BusAnswer) (b : Bus) (s : State) :
    (recordTransaction r a b s).trace = s.trace ++ [⟨r, a⟩] := rfl

@[simp] theorem awaitAnswer_phase (r : BusRequest) (s : State) :
    (awaitAnswer r s).phase = s.phase := rfl
@[simp] theorem awaitAnswer_cmd (r : BusRequest) (s : State) :
    (awaitAnswer r s).cmd = s.cmd := rfl
@[simp] theorem awaitAnswer_arg (r : BusRequest) (s : State) :
    (awaitAnswer r s).arg = s.arg := rfl
@[simp] theorem awaitAnswer_mu (r : BusRequest) (s : State) :
    (awaitAnswer r s).mu = s.mu := rfl
@[simp] theorem awaitAnswer_pollCount (r : BusRequest) (s : State) :
    (awaitAnswer r s).pollCount = s.pollCount := rfl
@[simp] theorem awaitAnswer_latch (r : BusRequest) (s : State) :
    (awaitAnswer r s).latch = s.latch := rfl
@[simp] theorem awaitAnswer_respValid (r : BusRequest) (s : State) :
    (awaitAnswer r s).respValid = s.respValid := rfl
@[simp] theorem awaitAnswer_respStatus (r : BusRequest) (s : State) :
    (awaitAnswer r s).respStatus = s.respStatus := rfl
@[simp] theorem awaitAnswer_respData (r : BusRequest) (s : State) :
    (awaitAnswer r s).respData = s.respData := rfl
@[simp] theorem awaitAnswer_respErr (r : BusRequest) (s : State) :
    (awaitAnswer r s).respErr = s.respErr := rfl
@[simp] theorem awaitAnswer_outstanding (r : BusRequest) (s : State) :
    (awaitAnswer r s).outstanding = some r := rfl
@[simp] theorem awaitAnswer_params (r : BusRequest) (s : State) :
    (awaitAnswer r s).params = s.params := rfl
@[simp] theorem awaitAnswer_cmdPort (r : BusRequest) (s : State) :
    (awaitAnswer r s).cmdPort = s.cmdPort := rfl
@[simp] theorem awaitAnswer_resetReq (r : BusRequest) (s : State) :
    (awaitAnswer r s).resetReq = s.resetReq := rfl
@[simp] theorem awaitAnswer_bus (r : BusRequest) (s : State) :
    (awaitAnswer r s).bus = s.bus := rfl
@[simp] theorem awaitAnswer_trace (r : BusRequest) (s : State) :
    (awaitAnswer r s).trace = s.trace := rfl

@[simp] theorem accept_phase (c : Command) (s : State) :
    (accept c s).phase = .busy := rfl
@[simp] theorem accept_cmd (c : Command) (s : State) :
    (accept c s).cmd = c.cmd := rfl
@[simp] theorem accept_arg (c : Command) (s : State) :
    (accept c s).arg = c.arg := rfl
@[simp] theorem accept_mu (c : Command) (s : State) :
    (accept c s).mu = 0 := rfl
@[simp] theorem accept_pollCount (c : Command) (s : State) :
    (accept c s).pollCount = 0 := rfl
@[simp] theorem accept_latch (c : Command) (s : State) :
    (accept c s).latch = 0#32 := rfl
@[simp] theorem accept_respValid (c : Command) (s : State) :
    (accept c s).respValid = false := rfl
@[simp] theorem accept_respStatus (c : Command) (s : State) :
    (accept c s).respStatus = s.respStatus := rfl
@[simp] theorem accept_respData (c : Command) (s : State) :
    (accept c s).respData = s.respData := rfl
@[simp] theorem accept_respErr (c : Command) (s : State) :
    (accept c s).respErr = s.respErr := rfl
@[simp] theorem accept_outstanding (c : Command) (s : State) :
    (accept c s).outstanding = none := rfl
@[simp] theorem accept_params (c : Command) (s : State) :
    (accept c s).params = s.params := rfl
@[simp] theorem accept_cmdPort (c : Command) (s : State) :
    (accept c s).cmdPort = s.cmdPort := rfl
@[simp] theorem accept_resetReq (c : Command) (s : State) :
    (accept c s).resetReq = s.resetReq := rfl
@[simp] theorem accept_bus (c : Command) (s : State) :
    (accept c s).bus = s.bus := rfl
@[simp] theorem accept_trace (c : Command) (s : State) :
    (accept c s).trace = s.trace := rfl

@[simp] theorem blockReset_phase (s : State) :
    (blockReset s).phase = .idle := rfl
@[simp] theorem blockReset_cmd (s : State) :
    (blockReset s).cmd = 0#32 := rfl
@[simp] theorem blockReset_arg (s : State) :
    (blockReset s).arg = 0#32 := rfl
@[simp] theorem blockReset_mu (s : State) :
    (blockReset s).mu = 0 := rfl
@[simp] theorem blockReset_pollCount (s : State) :
    (blockReset s).pollCount = 0 := rfl
@[simp] theorem blockReset_latch (s : State) :
    (blockReset s).latch = 0#32 := rfl
@[simp] theorem blockReset_respValid (s : State) :
    (blockReset s).respValid = false := rfl
@[simp] theorem blockReset_respStatus (s : State) :
    (blockReset s).respStatus = 0#3 := rfl
@[simp] theorem blockReset_respData (s : State) :
    (blockReset s).respData = 0#32 := rfl
@[simp] theorem blockReset_respErr (s : State) :
    (blockReset s).respErr = none := rfl
@[simp] theorem blockReset_outstanding (s : State) :
    (blockReset s).outstanding = none := rfl
@[simp] theorem blockReset_params (s : State) :
    (blockReset s).params = s.params := rfl
@[simp] theorem blockReset_cmdPort (s : State) :
    (blockReset s).cmdPort = s.cmdPort := rfl
@[simp] theorem blockReset_resetReq (s : State) :
    (blockReset s).resetReq = false := rfl
@[simp] theorem blockReset_bus (s : State) :
    (blockReset s).bus = if s.outstanding.isSome then s.bus.discard else s.bus := rfl
@[simp] theorem blockReset_trace (s : State) :
    (blockReset s).trace = s.trace := rfl

@[simp] theorem nextPosition_phase (s : State) :
    (nextPosition s).phase = s.phase := rfl
@[simp] theorem nextPosition_cmd (s : State) :
    (nextPosition s).cmd = s.cmd := rfl
@[simp] theorem nextPosition_arg (s : State) :
    (nextPosition s).arg = s.arg := rfl
@[simp] theorem nextPosition_mu (s : State) :
    (nextPosition s).mu = s.mu + 1 := rfl
@[simp] theorem nextPosition_pollCount (s : State) :
    (nextPosition s).pollCount = s.pollCount := rfl
@[simp] theorem nextPosition_latch (s : State) :
    (nextPosition s).latch = s.latch := rfl
@[simp] theorem nextPosition_respValid (s : State) :
    (nextPosition s).respValid = s.respValid := rfl
@[simp] theorem nextPosition_respStatus (s : State) :
    (nextPosition s).respStatus = s.respStatus := rfl
@[simp] theorem nextPosition_respData (s : State) :
    (nextPosition s).respData = s.respData := rfl
@[simp] theorem nextPosition_respErr (s : State) :
    (nextPosition s).respErr = s.respErr := rfl
@[simp] theorem nextPosition_outstanding (s : State) :
    (nextPosition s).outstanding = s.outstanding := rfl
@[simp] theorem nextPosition_params (s : State) :
    (nextPosition s).params = s.params := rfl
@[simp] theorem nextPosition_cmdPort (s : State) :
    (nextPosition s).cmdPort = s.cmdPort := rfl
@[simp] theorem nextPosition_resetReq (s : State) :
    (nextPosition s).resetReq = s.resetReq := rfl
@[simp] theorem nextPosition_bus (s : State) :
    (nextPosition s).bus = s.bus := rfl
@[simp] theorem nextPosition_trace (s : State) :
    (nextPosition s).trace = s.trace := rfl

@[simp] theorem nextPoll_phase (s : State) :
    (nextPoll s).phase = s.phase := rfl
@[simp] theorem nextPoll_cmd (s : State) :
    (nextPoll s).cmd = s.cmd := rfl
@[simp] theorem nextPoll_arg (s : State) :
    (nextPoll s).arg = s.arg := rfl
@[simp] theorem nextPoll_mu (s : State) :
    (nextPoll s).mu = s.mu + 1 := rfl
@[simp] theorem nextPoll_pollCount (s : State) :
    (nextPoll s).pollCount = 0 := rfl
@[simp] theorem nextPoll_latch (s : State) :
    (nextPoll s).latch = s.latch := rfl
@[simp] theorem nextPoll_respValid (s : State) :
    (nextPoll s).respValid = s.respValid := rfl
@[simp] theorem nextPoll_respStatus (s : State) :
    (nextPoll s).respStatus = s.respStatus := rfl
@[simp] theorem nextPoll_respData (s : State) :
    (nextPoll s).respData = s.respData := rfl
@[simp] theorem nextPoll_respErr (s : State) :
    (nextPoll s).respErr = s.respErr := rfl
@[simp] theorem nextPoll_outstanding (s : State) :
    (nextPoll s).outstanding = s.outstanding := rfl
@[simp] theorem nextPoll_params (s : State) :
    (nextPoll s).params = s.params := rfl
@[simp] theorem nextPoll_cmdPort (s : State) :
    (nextPoll s).cmdPort = s.cmdPort := rfl
@[simp] theorem nextPoll_resetReq (s : State) :
    (nextPoll s).resetReq = s.resetReq := rfl
@[simp] theorem nextPoll_bus (s : State) :
    (nextPoll s).bus = s.bus := rfl
@[simp] theorem nextPoll_trace (s : State) :
    (nextPoll s).trace = s.trace := rfl

@[simp] theorem countRead_phase (s : State) :
    (countRead s).phase = s.phase := rfl
@[simp] theorem countRead_cmd (s : State) :
    (countRead s).cmd = s.cmd := rfl
@[simp] theorem countRead_arg (s : State) :
    (countRead s).arg = s.arg := rfl
@[simp] theorem countRead_mu (s : State) :
    (countRead s).mu = s.mu := rfl
@[simp] theorem countRead_pollCount (s : State) :
    (countRead s).pollCount = s.pollCount + 1 := rfl
@[simp] theorem countRead_latch (s : State) :
    (countRead s).latch = s.latch := rfl
@[simp] theorem countRead_respValid (s : State) :
    (countRead s).respValid = s.respValid := rfl
@[simp] theorem countRead_respStatus (s : State) :
    (countRead s).respStatus = s.respStatus := rfl
@[simp] theorem countRead_respData (s : State) :
    (countRead s).respData = s.respData := rfl
@[simp] theorem countRead_respErr (s : State) :
    (countRead s).respErr = s.respErr := rfl
@[simp] theorem countRead_outstanding (s : State) :
    (countRead s).outstanding = s.outstanding := rfl
@[simp] theorem countRead_params (s : State) :
    (countRead s).params = s.params := rfl
@[simp] theorem countRead_cmdPort (s : State) :
    (countRead s).cmdPort = s.cmdPort := rfl
@[simp] theorem countRead_resetReq (s : State) :
    (countRead s).resetReq = s.resetReq := rfl
@[simp] theorem countRead_bus (s : State) :
    (countRead s).bus = s.bus := rfl
@[simp] theorem countRead_trace (s : State) :
    (countRead s).trace = s.trace := rfl

@[simp] theorem latchWord_phase (w : Word) (s : State) :
    (latchWord w s).phase = s.phase := rfl
@[simp] theorem latchWord_cmd (w : Word) (s : State) :
    (latchWord w s).cmd = s.cmd := rfl
@[simp] theorem latchWord_arg (w : Word) (s : State) :
    (latchWord w s).arg = s.arg := rfl
@[simp] theorem latchWord_mu (w : Word) (s : State) :
    (latchWord w s).mu = s.mu := rfl
@[simp] theorem latchWord_pollCount (w : Word) (s : State) :
    (latchWord w s).pollCount = s.pollCount := rfl
@[simp] theorem latchWord_latch (w : Word) (s : State) :
    (latchWord w s).latch = w := rfl
@[simp] theorem latchWord_respValid (w : Word) (s : State) :
    (latchWord w s).respValid = s.respValid := rfl
@[simp] theorem latchWord_respStatus (w : Word) (s : State) :
    (latchWord w s).respStatus = s.respStatus := rfl
@[simp] theorem latchWord_respData (w : Word) (s : State) :
    (latchWord w s).respData = s.respData := rfl
@[simp] theorem latchWord_respErr (w : Word) (s : State) :
    (latchWord w s).respErr = s.respErr := rfl
@[simp] theorem latchWord_outstanding (w : Word) (s : State) :
    (latchWord w s).outstanding = s.outstanding := rfl
@[simp] theorem latchWord_params (w : Word) (s : State) :
    (latchWord w s).params = s.params := rfl
@[simp] theorem latchWord_cmdPort (w : Word) (s : State) :
    (latchWord w s).cmdPort = s.cmdPort := rfl
@[simp] theorem latchWord_resetReq (w : Word) (s : State) :
    (latchWord w s).resetReq = s.resetReq := rfl
@[simp] theorem latchWord_bus (w : Word) (s : State) :
    (latchWord w s).bus = s.bus := rfl
@[simp] theorem latchWord_trace (w : Word) (s : State) :
    (latchWord w s).trace = s.trace := rfl

@[simp] theorem respond_eq (v : Word) (s : State) : respond v s = complete .ok v none s := rfl
@[simp] theorem raise_eq (st : Status) (e : Option TransportError) (s : State) :
    raise st e s = complete st 0#32 e s := rfl
@[simp] theorem raiseTimeout_eq (s : State) : raiseTimeout s = complete .timeout 0#32 none s := rfl
@[simp] theorem raiseTransport_eq (e : TransportError) (s : State) :
    raiseTransport e s = complete .transport 0#32 (some e) s := rfl
@[simp] theorem raiseIllegal_eq (s : State) : raiseIllegal s = complete .illegal 0#32 none s := rfl

end Sys2Proof.Machine
end

