-- ==== Sys2Proof/Laws/Ops.lean ====
section
/-!
SUPPORT. What each shared operation can do, said once: the bus, one transaction, the end of a command, the
sequence's steps, and `step`.
-/

namespace Sys2Proof.Machine

/-! The bus. -/

@[simp] theorem bus_script_nil_answer (r : BusRequest) : (Bus.script []).answer r = none := rfl
@[simp] theorem bus_script_cons_answer (a : BusAnswer) (l : List BusAnswer) (r : BusRequest) :
    (Bus.script (a :: l)).answer r = some (a, .script l) := rfl
@[simp] theorem bus_reference_read (t : RefTarget) (addr : Word) :
    (Bus.reference t).answer (.read addr) = some (.ok (t.read addr), .reference t) := rfl
@[simp] theorem bus_reference_write (t : RefTarget) (addr v : Word) :
    (Bus.reference t).answer (.write addr v) = some (.ok 0#32, .reference (t.write addr v)) := rfl

/-! One bus transaction. -/

theorem transact_unanswered {r : BusRequest} {s : State} (k : Word → State → State)
    (h : s.bus.answer r = none) : transact r k s = awaitAnswer r s := by
  simp only [transact, h]

theorem transact_ok {r : BusRequest} {s : State} {w : Word} {b : Bus} (k : Word → State → State)
    (h : s.bus.answer r = some (.ok w, b)) :
    transact r k s = k w (recordTransaction r (.ok w) b s) := by
  simp only [transact, h]

theorem transact_err {r : BusRequest} {s : State} {e : TransportError} {b : Bus} (k : Word → State → State)
    (h : s.bus.answer r = some (.err e, b)) :
    transact r k s = raiseTransport e (recordTransaction r (.err e) b s) := by
  simp only [transact, h]

/-- All a transaction can do: wait, go on with the word read, or raise Transport. -/
theorem transact_cases (r : BusRequest) (k : Word → State → State) (s : State) :
    (s.bus.answer r = none ∧ transact r k s = awaitAnswer r s) ∨
    (∃ w b, s.bus.answer r = some (.ok w, b) ∧ transact r k s = k w (recordTransaction r (.ok w) b s)) ∨
    (∃ e b, s.bus.answer r = some (.err e, b) ∧
      transact r k s = raiseTransport e (recordTransaction r (.err e) b s)) := by
  rcases h : s.bus.answer r with _ | ⟨_ | _, b⟩
  · exact .inl ⟨rfl, transact_unanswered k h⟩
  · exact .inr (.inl ⟨_, b, rfl, transact_ok k h⟩)
  · exact .inr (.inr ⟨_, b, rfl, transact_err k h⟩)

/-! The end of a command and the advance of `mu`. -/

/-- A command ends with a response: OK with its data, or UNSUPPORTED. -/
theorem finishCommand_cases (f : Finish) (v : Word) (s : State) :
    (∃ d, finishCommand f v s = complete .ok d none s) ∨
    (f = .unsupported ∧ finishCommand f v s = raiseUnsupported s) := by
  cases f with
  | respondRead => exact .inl ⟨v, rfl⟩
  | respondWord w => exact .inl ⟨w, rfl⟩
  | respondCount => exact .inl ⟨numCode s.latch, rfl⟩
  | unsupported => exact .inr ⟨rfl, rfl⟩

/-- `mu` moves on to a poll, whose count starts at 0; or to another transaction; or the command ends. -/
theorem advance_cases (q : Sequence) (v : Word) (s : State) :
    (∃ b, q.actions[s.mu + 1]? = some (.poll b) ∧ advance q v s = nextPoll s) ∨
    (∃ a, q.actions[s.mu + 1]? = some a ∧ (∀ b, a ≠ .poll b) ∧ advance q v s = nextPosition s) ∨
    (q.actions[s.mu + 1]? = none ∧ advance q v s = finishCommand q.finish v (nextPosition s)) := by
  rcases h : q.actions[s.mu + 1]? with _ | a
  · exact .inr (.inr ⟨rfl, by simp only [advance, h]⟩)
  · cases a with
    | poll b => exact .inl ⟨b, rfl, by simp only [advance, h]⟩
    | write addr w => exact .inr (.inl ⟨_, rfl, fun _ => by simp, by simp only [advance, h]⟩)
    | read addr => exact .inr (.inl ⟨_, rfl, fun _ => by simp, by simp only [advance, h]⟩)
    | readLatch addr => exact .inr (.inl ⟨_, rfl, fun _ => by simp, by simp only [advance, h]⟩)

/-- What the end of a command leaves unchanged. -/
theorem finishCommand_frame (f : Finish) (v : Word) (s : State) :
    (finishCommand f v s).cmd = s.cmd ∧ (finishCommand f v s).arg = s.arg ∧
    (finishCommand f v s).params = s.params ∧ (finishCommand f v s).cmdPort = s.cmdPort ∧
    (finishCommand f v s).resetReq = s.resetReq ∧ (finishCommand f v s).latch = s.latch ∧
    (finishCommand f v s).trace = s.trace ∧ (finishCommand f v s).bus = s.bus ∧
    (finishCommand f v s).outstanding = s.outstanding ∧ (finishCommand f v s).mu = s.mu ∧
    (finishCommand f v s).pollCount = s.pollCount ∧ (finishCommand f v s).phase ≠ .busy := by
  rcases finishCommand_cases f v s with ⟨d, h⟩ | ⟨_, h⟩
  · simp [h]
  · simp only [h, raiseUnsupported_phase]
    refine ⟨rfl, rfl, rfl, rfl, rfl, rfl, rfl, rfl, rfl, rfl, rfl, ?_⟩
    split <;> simp

/-! The sequence. -/

/-- A command without transactions ends in its one step. -/
theorem runSequence_empty (f : Finish) (s : State) (h : s.mu = 0) :
    runSequence ⟨[], f⟩ s = .next (finishCommand f 0#32 s) := by
  simp [runSequence, h]

theorem runSequence_at {q : Sequence} {s : State} {a : BusAction} (h : q.actions[s.mu]? = some a) :
    runSequence q s = .next (perform q a s) := by
  simp only [runSequence, h]

/-- All one step of a sequence can answer with a next state: the action at `mu`, or the end of a command that
has none. -/
theorem runSequence_next {q : Sequence} {s s' : State} (h : runSequence q s = .next s') :
    (∃ a, q.actions[s.mu]? = some a ∧ s' = perform q a s) ∨
    (q.actions[s.mu]? = none ∧ s.mu = 0 ∧ s' = finishCommand q.finish 0#32 s) := by
  rcases ha : q.actions[s.mu]? with _ | a
  · simp only [runSequence, ha] at h
    split at h
    · exact .inr ⟨rfl, ‹_›, by simpa using h.symm⟩
    · cases h
  · simp only [runSequence, ha] at h
    exact .inl ⟨a, rfl, by simpa using h.symm⟩

/-- A poll with reads left makes one status read; without, it times out. -/
theorem pollOnce_exhausted {q : Sequence} {b : StatusBit} {s : State} (h : s.params.pollLimit ≤ s.pollCount) :
    pollOnce q b s = raiseTimeout s := by
  simp [pollOnce, Nat.not_lt.mpr h]

theorem pollOnce_set {q : Sequence} {b : StatusBit} {s : State} {w : Word} {b' : Bus}
    (hl : s.pollCount < s.params.pollLimit) (ha : s.bus.answer (.read dhcsrAddr) = some (.ok w, b'))
    (ht : b.test w = true) :
    pollOnce q b s = advance q 0#32 (countRead (recordTransaction (.read dhcsrAddr) (.ok w) b' s)) := by
  simp [pollOnce, hl, transact_ok _ ha, ht]

theorem pollOnce_clear {q : Sequence} {b : StatusBit} {s : State} {w : Word} {b' : Bus}
    (hl : s.pollCount < s.params.pollLimit) (ha : s.bus.answer (.read dhcsrAddr) = some (.ok w, b'))
    (ht : b.test w = false) :
    pollOnce q b s = countRead (recordTransaction (.read dhcsrAddr) (.ok w) b' s) := by
  simp [pollOnce, hl, transact_ok _ ha, ht]

/-- The registers an action writes with the word its transaction read: a poll counts the read, BPUNITS latches the
word. -/
def absorbed : BusAction → Word → State → State
  | .poll _, _, s => countRead s
  | .readLatch _, w, s => latchWord w s
  | .read _, _, s => s
  | .write _ _, _, s => s

@[simp] theorem absorbed_phase (a : BusAction) (w : Word) (s : State) :
    (absorbed a w s).phase = s.phase := by cases a <;> rfl
@[simp] theorem absorbed_cmd (a : BusAction) (w : Word) (s : State) :
    (absorbed a w s).cmd = s.cmd := by cases a <;> rfl
@[simp] theorem absorbed_arg (a : BusAction) (w : Word) (s : State) :
    (absorbed a w s).arg = s.arg := by cases a <;> rfl
@[simp] theorem absorbed_mu (a : BusAction) (w : Word) (s : State) :
    (absorbed a w s).mu = s.mu := by cases a <;> rfl
@[simp] theorem absorbed_respValid (a : BusAction) (w : Word) (s : State) :
    (absorbed a w s).respValid = s.respValid := by cases a <;> rfl
@[simp] theorem absorbed_respStatus (a : BusAction) (w : Word) (s : State) :
    (absorbed a w s).respStatus = s.respStatus := by cases a <;> rfl
@[simp] theorem absorbed_respData (a : BusAction) (w : Word) (s : State) :
    (absorbed a w s).respData = s.respData := by cases a <;> rfl
@[simp] theorem absorbed_respErr (a : BusAction) (w : Word) (s : State) :
    (absorbed a w s).respErr = s.respErr := by cases a <;> rfl
@[simp] theorem absorbed_outstanding (a : BusAction) (w : Word) (s : State) :
    (absorbed a w s).outstanding = s.outstanding := by cases a <;> rfl
@[simp] theorem absorbed_params (a : BusAction) (w : Word) (s : State) :
    (absorbed a w s).params = s.params := by cases a <;> rfl
@[simp] theorem absorbed_cmdPort (a : BusAction) (w : Word) (s : State) :
    (absorbed a w s).cmdPort = s.cmdPort := by cases a <;> rfl
@[simp] theorem absorbed_resetReq (a : BusAction) (w : Word) (s : State) :
    (absorbed a w s).resetReq = s.resetReq := by cases a <;> rfl
@[simp] theorem absorbed_bus (a : BusAction) (w : Word) (s : State) :
    (absorbed a w s).bus = s.bus := by cases a <;> rfl
@[simp] theorem absorbed_trace (a : BusAction) (w : Word) (s : State) :
    (absorbed a w s).trace = s.trace := by cases a <;> rfl

/-- The word the sequence goes on with after an action that read `w`. -/
def carried : BusAction → Word → Word
  | .read _, w => w
  | .readLatch _, w => w
  | .poll _, _ => 0#32
  | .write _ _, _ => 0#32

/-- An action makes its transaction unless it is a poll that has used up its reads. -/
abbrev canTransact (a : BusAction) (s : State) : Prop := ∀ b, a = .poll b → s.pollCount < s.params.pollLimit

/-- An action other than a poll is its transaction, after which the sequence goes on. -/
theorem perform_transaction {q : Sequence} {a : BusAction} (h : ∀ p, a ≠ .poll p) (s : State) :
    perform q a s = transact a.request (fun w s1 => advance q (carried a w) (absorbed a w s1)) s := by
  cases a with
  | poll p => exact absurd rfl (h p)
  | write addr v => rfl
  | read addr => rfl
  | readLatch addr => rfl

/-- All one step of an action can do: time out, wait, raise Transport, keep polling, or go on. -/
theorem perform_cases (q : Sequence) (a : BusAction) (s : State) :
    (¬ canTransact a s ∧ perform q a s = raiseTimeout s) ∨
    (canTransact a s ∧ s.bus.answer a.request = none ∧ perform q a s = awaitAnswer a.request s) ∨
    (canTransact a s ∧ ∃ e b, s.bus.answer a.request = some (.err e, b) ∧
      perform q a s = raiseTransport e (recordTransaction a.request (.err e) b s)) ∨
    (canTransact a s ∧ ∃ w b p, s.bus.answer a.request = some (.ok w, b) ∧ a = .poll p ∧ p.test w = false ∧
      perform q a s = countRead (recordTransaction a.request (.ok w) b s)) ∨
    (canTransact a s ∧ ∃ w b, s.bus.answer a.request = some (.ok w, b) ∧ (∀ p, a = .poll p → p.test w = true) ∧
      perform q a s = advance q (carried a w) (absorbed a w (recordTransaction a.request (.ok w) b s))) := by
  by_cases hp : ∃ p, a = .poll p
  · obtain ⟨p, rfl⟩ := hp
    rcases Nat.lt_or_ge s.pollCount s.params.pollLimit with hl | hl
    · have hc : canTransact (.poll p) s := fun _ _ => hl
      rcases ha : s.bus.answer (.read dhcsrAddr) with _ | ⟨w | e, b⟩
      · exact .inr (.inl ⟨hc, ha, by simp only [perform, pollOnce, if_pos hl]; exact transact_unanswered _ ha⟩)
      · rcases ht : p.test w with _ | _
        · exact .inr (.inr (.inr (.inl ⟨hc, w, b, p, ha, rfl, ht, pollOnce_clear hl ha ht⟩)))
        · refine .inr (.inr (.inr (.inr ⟨hc, w, b, ha, fun p' hp => ?_, pollOnce_set hl ha ht⟩)))
          cases hp
          exact ht
      · exact .inr (.inr (.inl ⟨hc, e, b, ha, by
          simp only [perform, pollOnce, if_pos hl]; exact transact_err _ ha⟩))
    · exact .inl ⟨fun h => absurd (h p rfl) (Nat.not_lt.mpr hl), pollOnce_exhausted hl⟩
  · have hn : ∀ p, a ≠ .poll p := fun p h => hp ⟨p, h⟩
    have hc : canTransact a s := fun p h => absurd h (hn p)
    rcases transact_cases a.request (fun w s1 => advance q (carried a w) (absorbed a w s1)) s with
      ⟨h, h'⟩ | ⟨w, b, h, h'⟩ | ⟨e, b, h, h'⟩
    · exact .inr (.inl ⟨hc, h, (perform_transaction hn s).trans h'⟩)
    · exact .inr (.inr (.inr (.inr
        ⟨hc, w, b, h, fun p h => absurd h (hn p), (perform_transaction hn s).trans h'⟩)))
    · exact .inr (.inr (.inl ⟨hc, e, b, h, (perform_transaction hn s).trans h'⟩))

/-! The meanings and `step`. -/

/-- Every meaning is one step of its command's sequence. -/
theorem exec_eq_runSequence (i : Instr) (s : State) : exec i s = runSequence (commandSequence s.params i) s := by
  cases i <;> rfl

/-- A request is due exactly when the action at `mu` can transact. -/
theorem dueRequest_eq {i : Instr} {s : State} {a : BusAction} (h : (commandSequence s.params i).actions[s.mu]? = some a)
    (hc : canTransact a s) : dueRequest i s = some a.request := by
  cases a with
  | poll b => simp [dueRequest, h, hc b rfl]
  | write addr v => simp [dueRequest, h]
  | read addr => simp [dueRequest, h]
  | readLatch addr => simp [dueRequest, h]

/-- A due request is that of an action at `mu` that can transact. -/
theorem dueRequest_some {i : Instr} {s : State} {r : BusRequest} (h : dueRequest i s = some r) :
    ∃ a, (commandSequence s.params i).actions[s.mu]? = some a ∧ canTransact a s ∧ a.request = r := by
  rcases ha : (commandSequence s.params i).actions[s.mu]? with _ | a
  · simp [dueRequest, ha] at h
  · refine ⟨a, rfl, ?_⟩
    cases a with
    | poll b =>
      simp only [dueRequest, ha, Option.ite_none_right_eq_some] at h
      exact ⟨fun _ _ => h.1, by simpa using h.2⟩
    | write addr v => exact ⟨by simp [canTransact], by simpa [dueRequest, ha] using h⟩
    | read addr => exact ⟨by simp [canTransact], by simpa [dueRequest, ha] using h⟩
    | readLatch addr => exact ⟨by simp [canTransact], by simpa [dueRequest, ha] using h⟩

/-- All a step can do. -/
theorem step_cases (s : State) :
    (s.resetReq = true ∧ step s = .next (blockReset s)) ∨
    (s.resetReq = false ∧ s.phase = .fatal ∧ step s = .next s) ∨
    (s.resetReq = false ∧ s.phase = .idle ∧ step s = .next (idleStep s)) ∨
    (s.resetReq = false ∧ s.phase = .busy ∧ ∃ i, runningInstr s = .ok i ∧ step s = exec i s) ∨
    (s.resetReq = false ∧ s.phase = .busy ∧ ∃ e, runningInstr s = .error e ∧ step s = .next (raiseIllegal s)) := by
  rcases hr : s.resetReq with _ | _
  · rcases hp : s.phase with _ | _ | _
    · exact .inr (.inr (.inl ⟨rfl, rfl, by simp [step, hr, hp]⟩))
    · rcases hi : runningInstr s with e | i
      · exact .inr (.inr (.inr (.inr ⟨rfl, rfl, e, rfl, by simp [step, hr, hp, hi]⟩)))
      · exact .inr (.inr (.inr (.inl ⟨rfl, rfl, i, rfl, by simp [step, hr, hp, hi]⟩)))
    · exact .inr (.inl ⟨rfl, rfl, by simp [step, hr, hp]⟩)
  · exact .inl ⟨rfl, by simp [step, hr]⟩

/-- A step in IDLE accepts the command on the port, or waits. -/
theorem idleStep_cases (s : State) :
    (s.cmdPort = none ∧ idleStep s = s) ∨
    (∃ c, s.cmdPort = some c ∧ idleStep s = accept c { s with cmdPort := none }) := by
  rcases h : s.cmdPort with _ | c
  · exact .inl ⟨rfl, by simp [idleStep, h]⟩
  · exact .inr ⟨c, rfl, by simp [idleStep, h]⟩

/-! The host's moves and its answers. -/

/-- A move of the host happens exactly when it is allowed, and then changes what `HostMove.apply` says. -/
theorem hostMove_eq_some {m : HostMove} {s s' : State} :
    hostMove m s = some s' ↔ m.allowed s = true ∧ s' = m.apply s := by
  rw [hostMove, Option.ite_none_right_eq_some, Option.some.injEq, eq_comm (a := s')]

@[simp] theorem Bus.answer_give (b : Bus) (a : BusAnswer) (r : BusRequest) :
    (b.give a).answer r = some (a, b.discard) := rfl

@[simp] theorem Bus.hasGiven_give (b : Bus) (a : BusAnswer) : (b.give a).hasGiven = true := rfl

theorem Bus.givenOnce_of_not_hasGiven {b : Bus} (h : b.hasGiven = false) : b.givenOnce = true := by
  cases b <;> simp_all [Bus.hasGiven, Bus.givenOnce]

/-- Behind a bus with at most one answer given, no answer given is left once it has answered. -/
theorem Bus.hasGiven_of_answer {b b' : Bus} {r : BusRequest} {a : BusAnswer} (h : b.givenOnce = true)
    (ha : b.answer r = some (a, b')) : b'.hasGiven = false := by
  cases b with
  | free n => simp only [Bus.answer, Option.map_eq_some_iff, Prod.mk.injEq] at ha; obtain ⟨_, _, _, rfl⟩ := ha; rfl
  | script l =>
    rcases l with _ | ⟨x, rest⟩
    · cases ha
    · simp only [Bus.answer, Option.some.injEq, Prod.mk.injEq] at ha; obtain ⟨_, rfl⟩ := ha; rfl
  | reference t => simp only [Bus.answer, Option.some.injEq, Prod.mk.injEq] at ha; obtain ⟨_, rfl⟩ := ha; rfl
  | given x rest =>
    simp only [Bus.answer, Option.some.injEq, Prod.mk.injEq] at ha; obtain ⟨_, rfl⟩ := ha
    simpa [Bus.givenOnce] using h

/-- The same of the answer that a reset discards. -/
theorem Bus.hasGiven_discard {b : Bus} (h : b.givenOnce = true) : b.discard.hasGiven = false := by
  cases b <;> simp_all [Bus.hasGiven, Bus.discard, Bus.givenOnce]

end Sys2Proof.Machine
end

