-- ==== Sys2Proof/Laws/PerInstr.lean ====
section
/-!
SUPPORT. The family of statements made per command: the word the encoder writes has a used opcode and every
reserved bit 0 (spec/30_encoding.md R92, R99).
-/

namespace Sys2Proof.Laws.EncodeWellFormed

/-- The command word of `encode i` is well formed. -/
def Statement (i : Instr) : Prop := commandWordWf (encode i).cmd = true

theorem rdreg (reg : BitVec 5) : Statement (.rdreg reg) := by
  unfold Statement; revert reg; decide
theorem wrreg (reg : BitVec 5) (value : Word) : Statement (.wrreg reg value) := by
  show commandWordWf (reg.setWidth 32 <<< 4 ||| 0x2#32) = true
  revert reg; decide
theorem halt : Statement .halt := by unfold Statement; decide
theorem run : Statement .run := by unfold Statement; decide
theorem step : Statement .step := by unfold Statement; decide
theorem waith : Statement .waith := by unfold Statement; decide
theorem bpunits : Statement .bpunits := by unfold Statement; decide
theorem bpen (enable : Bool) : Statement (.bpen enable) := by
  unfold Statement; revert enable; decide
theorem setbp (address : Word) : Statement (.setbp address) := by
  show commandWordWf 0x9#32 = true
  decide
theorem enbp (address : Word) : Statement (.enbp address) := by
  show commandWordWf 0xA#32 = true
  decide
theorem disbp (address : Word) : Statement (.disbp address) := by
  show commandWordWf 0xB#32 = true
  decide
theorem basicreg (sel : BitVec 3) : Statement (.basicreg sel) := by
  unfold Statement; revert sel; decide

end Sys2Proof.Laws.EncodeWellFormed
end

