-- ==== Sys2Proof/Laws/RefTarget.lean ====
section
/-!
SUPPORT. The reference target's operations: what each leaves, so that no proof unfolds them.
-/

namespace Sys2Proof.Machine

theorem RefTarget.getCore_setCore (t : RefTarget) (i j : BitVec 5) (v : Word) :
    (t.setCore i v).getCore j = if j = i then v else t.getCore j := by
  simp only [RefTarget.getCore, RefTarget.setCore, Vector.getElem_set]
  simp [BitVec.toNat_inj, eq_comm]

@[simp] theorem RefTarget.getCore_setCore_same (t : RefTarget) (i : BitVec 5) (v : Word) :
    (t.setCore i v).getCore i = v := (t.getCore_setCore i i v).trans (if_pos rfl)

@[simp] theorem RefTarget.setCore_halted (t : RefTarget) (i : BitVec 5) (v : Word) :
    (t.setCore i v).halted = t.halted := rfl
@[simp] theorem RefTarget.setCore_maskints (t : RefTarget) (i : BitVec 5) (v : Word) :
    (t.setCore i v).maskints = t.maskints := rfl
@[simp] theorem RefTarget.setCore_regrdy (t : RefTarget) (i : BitVec 5) (v : Word) :
    (t.setCore i v).regrdy = t.regrdy := rfl

/-- A Status/Control read shows exactly the target's halted and ready state to the two polls. -/
theorem RefTarget.test_read_status (t : RefTarget) :
    StatusBit.halt.test (t.read dhcsrAddr) = t.halted ∧ StatusBit.regrdy.test (t.read dhcsrAddr) = t.regrdy := by
  simp only [RefTarget.read, if_pos]
  cases t.halted <;> cases t.regrdy <;> decide

theorem RefTarget.read_data (t : RefTarget) : t.read dcrdrAddr = t.dcrdr := by
  rw [RefTarget.read, if_neg (by decide), if_pos rfl]

theorem RefTarget.write_select (t : RefTarget) (w : Word) : t.write dcrsrAddr w = t.select w := by
  rw [RefTarget.write, if_neg (by decide), if_pos rfl]

theorem RefTarget.write_data (t : RefTarget) (w : Word) : t.write dcrdrAddr w = t.data w := by
  rw [RefTarget.write, if_neg (by decide), if_neg (by decide), if_pos rfl]

theorem RefTarget.write_control (t : RefTarget) (w : Word) :
    t.write dhcsrAddr w = if dhcsrUnlocked w then t.control w else t := by
  rw [RefTarget.write, if_pos rfl]

end Sys2Proof.Machine
end

