-- ==== Sys2Proof/Tests/Slice0.lean ====
section
/-!
SUPPORT. Tests: ill-formed terms, words written out from the encoding tables, the vectors of
spec/95_test_vectors.md, single steps, and for every statement with hypotheses a state that meets them.
-/

open Sys2Proof Sys2Proof.Machine

namespace Sys2Proof.Tests

/-! ### Ill-formed terms (30_encoding.md R92, R97, R99) -/

theorem test_rdreg_index_32_is_refused : assemble (.rdreg 32) = none := by decide
theorem test_wrreg_index_32_is_refused : assemble (.wrreg 32 0) = none := by decide
theorem test_wrreg_33_bit_literal_is_refused : assemble (.wrreg 0 4294967296) = none := by decide
theorem test_bpen_2_is_refused : assemble (.bpen 2) = none := by decide
theorem test_setbp_33_bit_literal_is_refused : assemble (.setbp 4294967296) = none := by decide
theorem test_enbp_33_bit_literal_is_refused : assemble (.enbp 4294967296) = none := by decide
theorem test_disbp_33_bit_literal_is_refused : assemble (.disbp 4294967296) = none := by decide
theorem test_basicreg_8_is_refused : assemble (.basicreg 8) = none := by decide
theorem test_greatest_operands_are_accepted :
    assemble (.rdreg 31) = some (.rdreg 31#5) ∧ assemble (.bpen 1) = some (.bpen true) ∧
    assemble (.basicreg 7) = some (.basicreg 7#3) ∧
    assemble (.wrreg Asm.pc 4294967295) = some (.wrreg 15#5 0xFFFFFFFF#32) := by decide
theorem test_unused_opcodes_are_not_well_formed :
    [0x0#32, 0xD#32, 0xE#32, 0xF#32].all (fun w => !opcodeUsed w) = true := by decide
theorem test_reserved_bits_are_not_well_formed :
    [0x13#32, 0x201#32, 0x2008#32, 0x80000003#32, 0x00080001#32, 0x0008000C#32, 0x00100001#32].all
      (fun w => opcodeUsed w && !reservedBitsClear w && !commandWordWf w) = true := by decide

/-! ### Words written out: bits 31:19, SEL, 15:13, EN, 11:9, REG, OP (30_encoding.md R92, R94) -/

theorem test_decode_rdreg : decode 0b0000000000000_000_000_0_000_00101_0001#32 9#32 = .ok (.rdreg 5#5) := by decide
theorem test_decode_wrreg :
    decode 0b0000000000000_000_000_0_000_00001_0010#32 0x12345678#32 = .ok (.wrreg 1#5 0x12345678#32) := by decide
theorem test_decode_halt : decode 0b0000000000000_000_000_0_000_00000_0011#32 0#32 = .ok .halt := by decide
theorem test_decode_run : decode 0b0000000000000_000_000_0_000_00000_0100#32 0#32 = .ok .run := by decide
theorem test_decode_step : decode 0b0000000000000_000_000_0_000_00000_0101#32 0#32 = .ok .step := by decide
theorem test_decode_waith : decode 0b0000000000000_000_000_0_000_00000_0110#32 0#32 = .ok .waith := by decide
theorem test_decode_bpunits : decode 0b0000000000000_000_000_0_000_00000_0111#32 0#32 = .ok .bpunits := by decide
theorem test_decode_bpen : decode 0b0000000000000_000_000_1_000_00000_1000#32 0#32 = .ok (.bpen true) := by decide
theorem test_decode_setbp :
    decode 0b0000000000000_000_000_0_000_00000_1001#32 0x08001004#32 = .ok (.setbp 0x08001004#32) := by decide
theorem test_decode_enbp :
    decode 0b0000000000000_000_000_0_000_00000_1010#32 0x08001004#32 = .ok (.enbp 0x08001004#32) := by decide
theorem test_decode_disbp :
    decode 0b0000000000000_000_000_0_000_00000_1011#32 0x08001004#32 = .ok (.disbp 0x08001004#32) := by decide
theorem test_decode_basicreg :
    decode 0b0000000000000_110_000_0_000_00000_1100#32 0#32 = .ok (.basicreg 6#3) := by decide
theorem test_illegal_words_are_named :
    decode 0x0#32 0#32 = .error .unusedOpcode ∧ decode 0xF#32 0#32 = .error .unusedOpcode ∧
    decode 0x13#32 0#32 = .error .reservedBitSet ∧ decode 0x0008000C#32 0#32 = .error .reservedBitSet := by decide
theorem test_table_word_has_the_argument_above_the_command :
    decodeTableWord 32 0x51 = some (.rdreg 5#5) ∧ decodeTableWord 32 0x9 = some (.setbp 0#32) ∧
    decodeTableWord 64 0x0800100400000009 = some (.setbp 0x08001004#32) ∧ decodeTableWord 32 0x201 = none := by
  decide

/-! ### The Register Codec, spec/95_test_vectors.md section 2.1 -/

theorem test_dhcsr_fields :
    [sResetSt, sRetireSt, sLockup, sSleep, sHalt, sRegrdy].map (fun f => f 0x030B0000#32) =
      [1#32, 1#32, 1#32, 0#32, 1#32, 1#32] := by decide
theorem test_dhcsr_regrdy_clear : sRegrdy 0xFFFEFFFF#32 = 0#32 ∧ sHalt 0xFFFEFFFF#32 = 1#32 := by decide
theorem test_enable_write :
    [0#32, 3#32, 0xA05F0003#32, 0x00010003#32, 0x00200000#32, 0x030B000D#32, 0xFFFFFFFF#32].map enableWrite =
      [0xA05F0000#32, 0xA05F0003#32, 0xA05F0003#32, 0xA05F0003#32, 0xA07F0000#32, 0xA35F000D#32,
        0xFFFFFFFF#32] := by decide
theorem test_control_words :
    dhcsrCtrl false false true true = 0xA05F0003#32 ∧ dhcsrCtrl true true false true = 0xA05F000D#32 := by decide
theorem test_set_c_halt_keeps_the_other_bits : setCHalt 0xFFFFFFFD#32 1#32 = 0xFFFFFFFF#32 := by decide
theorem test_dcrsr : dcrsr false 15#5 = 0xF#32 ∧ dcrsr true 0#5 = 0x10000#32 ∧ dcrsr true 31#5 = 0x1001F#32 := by
  decide
theorem test_dcrsr_fields : regsel 0x1002F#32 = 15#5 ∧ regwnr 0x1002F#32 = 1#32 := by decide
theorem test_num_code : [0x40#32, 0xF3#32, 0xFFFFFF0F#32].map numCode = [4#32, 15#32, 0#32] := by decide
theorem test_bp_ctrl :
    [bpCtrl true true, bpCtrl true false, bpCtrl false true, bpCtrl false false] = [3#32, 2#32, 1#32, 0#32] := by
  decide
theorem test_bp_comp_fields :
    bpMatch 0xC8001005#32 = 3#32 ∧ comp 0xC8001005#32 = 0x02000401#32 ∧ compEnable 0xC8001005#32 = 1#32 ∧
    matchAddress 0xC8001005#32 = 0x08001004#32 := by decide
theorem test_bp_comp :
    bpComp 3#32 0x02000401#32 true = 0xC8001005#32 ∧ bpComp 1#32 0xFFFFFFFF#32 false = 0x5FFFFFFC#32 := by decide
theorem test_setbp_words :
    [0x08001004#32, 0#32, 0xFFFFFFFF#32, 0x20000002#32, 0x1FFFFFFC#32, 0xE0001000#32].map (setbpWord false) =
      [0xC8001005#32, 0xC0000001#32, 0xDFFFFFFD#32, 0xC0000001#32, 0xDFFFFFFD#32, 0xC0001001#32] := by decide
theorem test_setbp_words_compat :
    [0x08001004#32, 0#32, 0xFFFFFFFF#32, 0x20000002#32, 0x1FFFFFFC#32, 0xE0001000#32].map (setbpWord true) =
      [0xCBFFFFFD#32, 0xC3FFFFFD#32, 0xDFFFFFFD#32, 0xC3FFFFFD#32, 0xDFFFFFFD#32, 0xC3FFFFFD#32] := by decide
theorem test_flash_layout_is_aligned : Config.flashLayout.aligned = true := by decide
theorem test_core_register_names :
    coreRegOfIndex 12#5 = .r 12 ∧ coreRegOfIndex 13#5 = .sp ∧ coreRegOfIndex 20#5 = .controlPrimask ∧
    coreRegOfIndex 19#5 = .reserved := by decide

/-! ### Single steps -/

/-- A block that runs `i` at position `mu`, with a limit of 2 reads and `bus` behind the port. -/
def running (i : Instr) (mu : Nat) (bus : Bus) : State :=
  { State.reset with
    phase := .busy
    cmd := (encode i).cmd
    arg := (encode i).arg
    mu := mu
    params := ⟨2, 0, false, false⟩
    bus := bus }

/-- What the outside sees of a step's outcome: the transactions made, and the response if the command ended. -/
def seen : Host.Outcome State Fault Refusal → Option (List BusRequest × Option (BitVec 3 × Word))
  | .next s => some (s.trace.map (·.request), if s.respValid then some (s.respStatus, s.respData) else none)
  | .fault _ => none
  | .refused _ => none

/-- `Ok(w)` once. -/
def answers (w : Word) : Bus := .script [.ok w]

theorem test_rdreg_selects :
    seen (exec (.rdreg 31#5) (running (.rdreg 31#5) 0 (answers 0#32))) =
      some ([.write 0xE000EDF4#32 0x1F#32], none) := by decide
theorem test_rdreg_responds_the_data_word :
    seen (exec (.rdreg 0#5) (running (.rdreg 0#5) 2 (answers 0x12345678#32))) =
      some ([.read 0xE000EDF8#32], some (0#3, 0x12345678#32)) := by decide
theorem test_wrreg_selects :
    seen (exec (.wrreg 1#5 7#32) (running (.wrreg 1#5 7#32) 0 (answers 0#32))) =
      some ([.write 0xE000EDF4#32 0x10001#32], none) := by decide
theorem test_wrreg_writes_the_value :
    seen (exec (.wrreg 1#5 0x12345678#32) (running (.wrreg 1#5 0x12345678#32) 2 (answers 0#32))) =
      some ([.write 0xE000EDF8#32 0x12345678#32], none) := by decide
theorem test_halt_writes_its_control_word :
    seen (exec .halt (running .halt 0 (answers 0#32))) = some ([.write 0xE000EDF0#32 0xA05F0003#32], none) := by
  decide
theorem test_halt_reads_the_pc :
    seen (exec .halt (running .halt 1 (answers 0#32))) = some ([.write 0xE000EDF4#32 0xF#32], none) := by decide
theorem test_run_ends_with_its_write :
    seen (exec .run (running .run 0 (answers 5#32))) =
      some ([.write 0xE000EDF0#32 0xA05F0000#32], some (0#3, 0#32)) := by decide
theorem test_run_forwards_the_error :
    seen (exec .run (running .run 0 (.script [.err ⟨1⟩]))) =
      some ([.write 0xE000EDF0#32 0xA05F0000#32], some (2#3, 0#32)) := by decide
theorem test_step_writes_its_control_word :
    seen (exec .step (running .step 0 (answers 0#32))) = some ([.write 0xE000EDF0#32 0xA05F000D#32], none) := by
  decide
theorem test_step_responds_the_data_word :
    seen (exec .step (running .step 4 (answers 0x1C6#32))) =
      some ([.read 0xE000EDF8#32], some (0#3, 0x1C6#32)) := by decide
theorem test_waith_ends_when_halted :
    seen (exec .waith (running .waith 0 (answers 0x30000#32))) =
      some ([.read 0xE000EDF0#32], some (0#3, 0#32)) := by decide
theorem test_waith_goes_on_when_not_halted :
    seen (exec .waith (running .waith 0 (answers 0xFFFDFFFF#32))) = some ([.read 0xE000EDF0#32], none) := by decide
theorem test_bpunits_reads_the_control_register :
    seen (exec .bpunits (running .bpunits 0 (answers 0x40#32))) = some ([.read 0xE0002000#32], none) := by decide
theorem test_bpunits_responds_the_latched_count :
    seen (exec .bpunits { running .bpunits 1 (answers 0x10000#32) with latch := 0xFFFFFFF3#32 }) =
      some ([.read 0xE000EDF0#32], some (0#3, 15#32)) := by decide
theorem test_bpen_writes_key_and_enable :
    seen (exec (.bpen true) (running (.bpen true) 0 (answers 0#32))) = some ([.write 0xE0002000#32 3#32], none) := by
  decide
theorem test_bpen_compat_has_no_key :
    seen (exec (.bpen true) { running (.bpen true) 0 (answers 0#32) with params := ⟨2, 0, true, false⟩ }) =
      some ([.write 0xE0002000#32 1#32], none) := by decide
theorem test_setbp_writes_the_comparator :
    seen (exec (.setbp 0x08001004#32) (running (.setbp 0x08001004#32) 0 (answers 0#32))) =
      some ([.write 0xE0002008#32 0xC8001005#32], none) := by decide
theorem test_setbp_compat_writes_the_control_register :
    seen (exec (.setbp 0x08001004#32)
        { running (.setbp 0x08001004#32) 0 (answers 0#32) with params := ⟨2, 0, true, false⟩ }) =
      some ([.write 0xE0002000#32 0xCBFFFFFD#32], none) := by decide
theorem test_enbp_is_unsupported :
    seen (exec (.enbp 4#32) (running (.enbp 4#32) 0 (answers 0#32))) = some ([], some (3#3, 0#32)) := by decide
theorem test_disbp_is_unsupported :
    seen (exec (.disbp 4#32) (running (.disbp 4#32) 0 (answers 0#32))) = some ([], some (3#3, 0#32)) := by decide
theorem test_basicreg_sel_4_is_r9 :
    seen (exec (.basicreg 4#3) (running (.basicreg 4#3) 0 (answers 0#32))) = some ([], some (0#3, 9#32)) := by decide
theorem test_basicreg_sel_7_is_sp :
    seen (exec (.basicreg 7#3) (running (.basicreg 7#3) 0 (answers 0#32))) = some ([], some (0#3, 13#32)) := by decide
theorem test_illegal_word_ends_with_illegal :
    seen (step { running .halt 0 (answers 0#32) with cmd := 0x13#32 }) = some ([], some (4#3, 0#32)) := by decide
theorem test_fetch_word_runs_next :
    seen (step (State.withFetchWord State.reset 32 0x0005000C)) = some ([], some (0#3, 15#32)) := by decide
theorem test_logical_states :
    logicalState (running .step 1 (answers 0#32)) 0#32 = .stepping ∧
    logicalState (running .step 1 (answers 0#32)) 0x20000#32 = .halted ∧
    logicalState (running .step 2 (answers 0#32)) 0#32 = .running := by decide
theorem test_error_answers_are_discarded_at_reset :
    (blockReset { running .run 0 (.script [.err ⟨1⟩, .ok 3#32]) with
      outstanding := some (.write 0xE000EDF0#32 0xA05F0000#32) }).bus = .script [.ok 3#32] := by decide

theorem test_host_answers_on_the_free_bus :
    ((hostMove (.answer (.ok 9#32)) { running .halt 3 (.free 7) with outstanding := some (.read 0xE000EDF8#32) }).map
      fun s => seen (step s)) = some (some ([.read 0xE000EDF8#32], some (0#3, 9#32))) := by decide
theorem test_host_presents_nothing_while_busy :
    hostMove (.present ⟨3#32, 0#32⟩) (running .halt 0 (answers 0#32)) = none := by decide

/-! ### The reference target (20_memory.md R77, R78) -/

theorem test_reference_reads :
    RefTarget.initial.read 0xE0002000#32 = 0x40#32 ∧ RefTarget.initial.read 0xE000EDF0#32 = 0#32 := by decide
theorem test_reference_halts :
    (RefTarget.initial.write 0xE000EDF0#32 0xA05F0003#32).halted = true ∧
    (RefTarget.initial.write 0xE000EDF0#32 0xA0500003#32).halted = false := by decide
theorem test_reference_steps :
    ((({ RefTarget.initial with halted := true }).setCore 15#5 0x100#32).write
      0xE000EDF0#32 0xA05F000D#32).getCore 15#5 = 0x102#32 := by decide
theorem test_reference_ignores_keyless_breakpoint_writes :
    (RefTarget.initial.write 0xE0002000#32 1#32).bpEn = false ∧
    (RefTarget.initial.write 0xE0002000#32 3#32).bpEn = true := by decide

/-! ### Witnesses: for each statement with hypotheses, a state and operands that meet them -/

theorem witness_FieldGetSetLaws :
    (∀ f ∈ [RegField.mk 31 0, ⟨31, 31⟩, ⟨0, 0⟩, ⟨28, 2⟩], f.lo ≤ f.hi ∧ f.hi < 32) ∧
    (RegField.mk 1 0).hi < (RegField.mk 28 2).lo ∧ (RegField.mk 28 2).hi < (RegField.mk 31 29).lo := by decide

theorem witness_EncodeOfDecode :
    decode 0x1F2#32 0xFFFFFFFF#32 = .ok (.wrreg 31#5 0xFFFFFFFF#32) ∧ decode 0x7000C#32 9#32 = .ok (.basicreg 7#3) := by decide

theorem witness_AtMostOneRowSelects :
    Opcode.rdreg.selects 0x1F1#32 = true ∧ Opcode.basicreg.selects 0x7000C#32 = true := by decide

theorem witness_StepRunsTheDecodedCommand :
    (running (.bpen true) 0 (answers 0#32)).resetReq = false ∧ (running (.bpen true) 0 (answers 0#32)).phase = .busy ∧
    decode (running (.bpen true) 0 (answers 0#32)).cmd (running (.bpen true) 0 (answers 0#32)).arg = .ok (.bpen true) := by decide

/-- A running block whose latched word is illegal. -/
def illegal : State := { running .halt 0 (answers 0#32) with cmd := 0x80000003#32 }

theorem witness_IllegalWordEndsWithIllegal :
    illegal.resetReq = false ∧ illegal.phase = .busy ∧ selectOpcode illegal.cmd = none := by decide

/-- An idle block to which `c` is presented. -/
def presented (c : Command) : State := { State.reset with cmdPort := some c }

theorem witness_IdleAcceptsThePresentedCommand :
    (State.reset.resetReq = false ∧ State.reset.phase = .idle ∧ State.reset.cmdPort = none) ∧
    ((presented ⟨0x13#32, 7#32⟩).resetReq = false ∧ (presented ⟨0x13#32, 7#32⟩).phase = .idle ∧
      (presented ⟨0x13#32, 7#32⟩).cmdPort = some ⟨0x13#32, 7#32⟩) := by decide

/-- A block in FATAL, with its reset input as given, to which a command is presented. -/
def fatal (resetReq : Bool) : State :=
  { State.reset with
    phase := .fatal
    respValid := true
    respStatus := 3#3
    params := ⟨2, 0, false, true⟩
    cmdPort := some ⟨3#32, 0#32⟩
    resetReq := resetReq }

theorem witness_NoCommandIsAcceptedUnlessIdle :
    ((fatal false).resetReq = false ∧ (fatal false).phase ≠ .idle ∧ ∃ s', step (fatal false) = .next s') ∧
    ∃ s', step { running .waith 0 (answers 0#32) with cmdPort := some ⟨3#32, 0#32⟩ } = .next s' := ⟨⟨by decide, by decide, _, rfl⟩, _, rfl⟩

theorem witness_ResponseStaysUntilTheNextCommand :
    ((fatal false).resetReq = false ∧ (fatal false).phase ≠ .busy ∧ ∃ s', step (fatal false) = .next s') ∧
    (presented ⟨3#32, 0#32⟩).phase ≠ .busy ∧ ∃ s', step (presented ⟨3#32, 0#32⟩) = .next s' := ⟨⟨by decide, by decide, _, rfl⟩, by decide, _, rfl⟩

theorem witness_ResetValues :
    (fatal true).resetReq = true := by decide

theorem witness_FatalLastsUntilReset :
    ((fatal false).phase = .fatal ∧ (fatal false).resetReq = false) ∧
    ((fatal true).phase = .fatal ∧ (fatal true).resetReq = true) := by decide

theorem witness_UnansweredRequestWaitsForever :
    ((running .halt 0 (.script [])).Running .halt ∧
      dueRequest .halt (running .halt 0 (.script [])) = some (.write 0xE000EDF0#32 0xA05F0003#32) ∧
      (running .halt 0 (.script [])).bus.answer (.write 0xE000EDF0#32 0xA05F0003#32) = none) ∧
    dueRequest .waith { running .waith 0 (.script []) with pollCount := 1 } = some (.read 0xE000EDF0#32) := by decide

theorem witness_OnlyTheResponseOutlivesACommand :
    ∃ s t : State, (s.resetReq = false ∧ t.resetReq = false ∧ s.phase = .idle ∧ t.phase = .idle ∧ s.cmdPort ≠ none ∧
      s.cmdPort = t.cmdPort ∧ s.params = t.params ∧ s.bus = t.bus ∧ s.trace = t.trace ∧
      s.respStatus = t.respStatus ∧ s.respData = t.respData ∧ s.respErr = t.respErr) ∧ s.mu ≠ t.mu ∧
      s.latch ≠ t.latch := 
  ⟨presented ⟨3#32, 0#32⟩, { presented ⟨3#32, 0#32⟩ with mu := 4, latch := 9#32 }, by decide⟩

theorem witness_ExecFrame :
    (∃ s', exec .run (running .run 0 (answers 0#32)) = .next s' ∧ s'.trace ≠ []) ∧
    ∃ s', exec (.enbp 4#32) (running (.enbp 4#32) 0 (answers 0#32)) = .next s' ∧ s'.trace = [] := ⟨⟨_, rfl, by decide⟩, _, rfl, by decide⟩

theorem witness_TransportErrorIsForwarded :
    dueRequest .bpunits (running .bpunits 1 (.script [.err ⟨7⟩])) = some (.read 0xE000EDF0#32) ∧
    (running .bpunits 1 (.script [.err ⟨7⟩])).bus.answer (.read 0xE000EDF0#32) = some (.err ⟨7⟩, .script []) := by decide

theorem witness_FailureIsPrecise :
    ∃ s s' : State, s.resetReq = false ∧ s.phase = .busy ∧ step s = .next s' ∧ s'.phase ≠ .busy ∧ s'.respStatus ≠ 0#3 := 
  ⟨running .run 0 (.script [.err ⟨7⟩]), _, by decide, by decide, rfl, by decide, by decide⟩

theorem witness_FailureIsPrecise_fatal :
    ∃ s s' : State, s.resetReq = false ∧ s.phase = .busy ∧ step s = .next s' ∧ s'.phase = .fatal ∧ s'.respStatus ≠ 0#3 := 
  ⟨{ running (.enbp 4#32) 0 (.script []) with params := ⟨2, 0, false, true⟩ }, _, by decide, by decide, rfl, by decide,
    by decide⟩

theorem witness_EveryPollStartsFromZero :
    ∃ s', exec .step { running .step 2 (answers 0#32) with pollCount := 2 } = .next s' ∧ s'.mu ≠ 2 ∧
      (commandSequence s'.params .step).actions[s'.mu]? = some (.poll .regrdy) := ⟨_, rfl, by decide, by decide⟩

theorem allClear {b : StatusBit} {ws : List Word} (h : ws.all (fun w => !b.test w) = true) : AllClear b ws := by
  simpa using h

/-- The hypotheses of `PollMakesAtMostLimitReads`. -/
abbrev AtPoll (i : Instr) (s : State) (b : StatusBit) (ws : List Word) (rest : List BusAnswer) : Prop :=
  s.Running i ∧ (commandSequence s.params i).actions[s.mu]? = some (.poll b) ∧ s.pollCount = 0 ∧
    s.outstanding = none ∧ AllClear b ws ∧ s.bus = .script (okAnswers ws ++ rest)

theorem witness_PollMakesAtMostLimitReads :
    AtPoll .waith (running .waith 0 (.script [.ok 5#32])) .halt [] [.ok 5#32] ∧
    (AtPoll .waith (running .waith 0 (answers 0x10000#32)) .halt [0x10000#32] [] ∧ [0x10000#32].length ≤ 2) ∧
    (AtPoll (.rdreg 0#5) (running (.rdreg 0#5) 1 (.script [.ok 0#32, .ok 0xFFFEFFFF#32])) .regrdy
      [0#32, 0xFFFEFFFF#32] [] ∧ [0#32, 0xFFFEFFFF#32].length = (running (.rdreg 0#5) 1 (.script [])).params.pollLimit) := 
  ⟨⟨⟨rfl, rfl, by decide⟩, rfl, rfl, rfl, allClear (by decide), rfl⟩, ⟨⟨⟨rfl, rfl, by decide⟩, rfl, rfl, rfl, allClear (by decide), rfl⟩, by decide⟩,
    ⟨⟨rfl, rfl, by decide⟩, rfl, rfl, rfl, allClear (by decide), rfl⟩, rfl⟩

/-- A block about to run `i` with the answers `l`. -/
abbrev Starts (i : Instr) (l : List BusAnswer) : Prop :=
  (running i 0 (.script l)).Running i ∧ (running i 0 (.script l)).mu = 0 ∧
    (running i 0 (.script l)).params.pollLimit = 2 ∧ (running i 0 (.script l)).bus = .script l

/-- Status words that fail a poll, as many as a limit of 2 leaves before its last read. -/
abbrev FewClear (b : StatusBit) (ws : List Word) : Prop := AllClear b ws ∧ ws.length = 1

/-- Status words that use up a limit of 2 reads. -/
abbrev AllReadsClear (b : StatusBit) (ws : List Word) : Prop := AllClear b ws ∧ ws.length = 2

/-! The clauses of the run statements: each premise list at its greatest number of failing reads, and the poll that
succeeds on its first read. -/

theorem starts {i : Instr} (h : decode (encode i).cmd (encode i).arg = .ok i) (l : List BusAnswer) : Starts i l :=
  ⟨⟨rfl, rfl, h⟩, rfl, rfl, rfl⟩

theorem witness_RdregRunsItsSequence :
    Starts (.rdreg 31#5) [.err ⟨1⟩] ∧
    Starts (.rdreg 31#5) (.ok 0#32 :: (okAnswers [0xFFFEFFFF#32] ++ [.err ⟨1⟩])) ∧
    Starts (.rdreg 31#5) (.ok 0#32 :: (okAnswers [0#32, 0xFFFEFFFF#32] ++ [])) ∧
    Starts (.rdreg 31#5) (.ok 0#32 :: (okAnswers [0xFFFEFFFF#32, 0x10000#32] ++ [.err ⟨1⟩])) ∧
    Starts (.rdreg 31#5) (.ok 0#32 :: (okAnswers [0x10000#32] ++ [.ok 9#32])) ∧
    FewClear .regrdy [0xFFFEFFFF#32] ∧ AllReadsClear .regrdy [0#32, 0xFFFEFFFF#32] ∧ StatusBit.regrdy.test 0x10000#32 = true := 
  ⟨starts (by decide) _, starts (by decide) _, starts (by decide) _, starts (by decide) _, starts (by decide) _,
    ⟨allClear (by decide), rfl⟩, ⟨allClear (by decide), rfl⟩, by decide⟩

theorem witness_WrregRunsItsSequence :
    Starts (.wrreg 31#5 9#32) [.err ⟨1⟩] ∧
    Starts (.wrreg 31#5 9#32) (.ok 0#32 :: (okAnswers [0xFFFEFFFF#32] ++ [.err ⟨1⟩])) ∧
    Starts (.wrreg 31#5 9#32) (.ok 0#32 :: (okAnswers [0#32, 0xFFFEFFFF#32] ++ [])) ∧
    Starts (.wrreg 31#5 9#32) (.ok 0#32 :: (okAnswers [0xFFFEFFFF#32, 0x10000#32] ++ [.err ⟨1⟩])) ∧
    Starts (.wrreg 31#5 9#32) (.ok 0#32 :: (okAnswers [0xFFFEFFFF#32, 0x10000#32] ++ .ok 0#32 :: (okAnswers [0xFFFEFFFF#32] ++ [.err ⟨1⟩]))) ∧
    Starts (.wrreg 31#5 9#32) (.ok 0#32 :: (okAnswers [0x10000#32] ++ .ok 0#32 :: (okAnswers [0#32, 0xFFFEFFFF#32] ++ []))) ∧
    Starts (.wrreg 31#5 9#32) (.ok 0#32 :: (okAnswers [0x10000#32] ++ .ok 0#32 :: (okAnswers [0xFFFEFFFF#32, 0x10000#32] ++ []))) ∧
    FewClear .regrdy [0xFFFEFFFF#32] ∧ AllReadsClear .regrdy [0#32, 0xFFFEFFFF#32] ∧ StatusBit.regrdy.test 0x10000#32 = true := 
  ⟨starts (by decide) _, starts (by decide) _, starts (by decide) _, starts (by decide) _, starts (by decide) _, starts (by decide) _, starts (by decide) _,
    ⟨allClear (by decide), rfl⟩, ⟨allClear (by decide), rfl⟩, by decide⟩

theorem witness_HaltRunsItsSequence :
    Starts .halt [.err ⟨1⟩] ∧
    Starts .halt [.ok 0#32, .err ⟨1⟩] ∧
    Starts .halt (.ok 0#32 :: .ok 0#32 :: (okAnswers [0xFFFEFFFF#32] ++ [.err ⟨1⟩])) ∧
    Starts .halt (.ok 0#32 :: .ok 0#32 :: (okAnswers [0#32, 0xFFFEFFFF#32] ++ [])) ∧
    Starts .halt (.ok 0#32 :: .ok 0#32 :: (okAnswers [0xFFFEFFFF#32, 0x10000#32] ++ [.err ⟨1⟩])) ∧
    Starts .halt (.ok 0#32 :: .ok 0#32 :: (okAnswers [0x10000#32] ++ [.ok 9#32])) ∧
    FewClear .regrdy [0xFFFEFFFF#32] ∧ AllReadsClear .regrdy [0#32, 0xFFFEFFFF#32] ∧ StatusBit.regrdy.test 0x10000#32 = true := 
  ⟨starts (by decide) _, starts (by decide) _, starts (by decide) _, starts (by decide) _, starts (by decide) _, starts (by decide) _,
    ⟨allClear (by decide), rfl⟩, ⟨allClear (by decide), rfl⟩, by decide⟩

theorem witness_StepRunsItsSequence :
    Starts .step (.ok 0#32 :: (okAnswers [0#32, 0xFFFDFFFF#32] ++ [])) ∧
    Starts .step (.ok 0#32 :: (okAnswers [0xFFFDFFFF#32, 0x20000#32] ++ .ok 0#32 :: (okAnswers [0#32, 0xFFFEFFFF#32] ++ []))) ∧
    Starts .step (.ok 0#32 :: (okAnswers [0x20000#32] ++ .ok 0#32 :: (okAnswers [0xFFFEFFFF#32, 0x10000#32] ++ [.ok 9#32]))) ∧
    FewClear .regrdy [0xFFFEFFFF#32] ∧ AllReadsClear .regrdy [0#32, 0xFFFEFFFF#32] ∧ StatusBit.regrdy.test 0x10000#32 = true ∧
    FewClear .halt [0xFFFDFFFF#32] ∧ AllReadsClear .halt [0#32, 0xFFFDFFFF#32] ∧ StatusBit.halt.test 0x20000#32 = true := 
  ⟨starts (by decide) _, starts (by decide) _, starts (by decide) _,
    ⟨allClear (by decide), rfl⟩, ⟨allClear (by decide), rfl⟩, by decide, ⟨allClear (by decide), rfl⟩,
    ⟨allClear (by decide), rfl⟩, by decide⟩

theorem witness_BpunitsRunsItsSequence :
    Starts .bpunits [.err ⟨1⟩] ∧
    Starts .bpunits (.ok 0x40#32 :: (okAnswers [0xFFFEFFFF#32] ++ [.err ⟨1⟩])) ∧
    Starts .bpunits (.ok 0x40#32 :: (okAnswers [0#32, 0xFFFEFFFF#32] ++ [])) ∧
    Starts .bpunits (.ok 0x40#32 :: (okAnswers [0x10000#32] ++ [])) ∧
    FewClear .regrdy [0xFFFEFFFF#32] ∧ AllReadsClear .regrdy [0#32, 0xFFFEFFFF#32] ∧ StatusBit.regrdy.test 0x10000#32 = true := 
  ⟨starts (by decide) _, starts (by decide) _, starts (by decide) _, starts (by decide) _,
    ⟨allClear (by decide), rfl⟩, ⟨allClear (by decide), rfl⟩, by decide⟩

theorem witness_BreakpointWritesTimeOut :
    Starts (.bpen true) (.ok 0#32 :: (okAnswers [0#32, 0xFFFDFFFF#32] ++ [])) ∧
    dueRequest (.bpen true) (running (.bpen true) 0 (.script [])) = some (.write 0xE0002000#32 3#32) ∧
    Starts (.setbp 4#32) (.ok 0#32 :: (okAnswers [0#32, 0xFFFDFFFF#32] ++ [])) ∧
    dueRequest (.setbp 4#32) (running (.setbp 4#32) 0 (.script [])) = some (.write 0xE0002008#32 0xC0000005#32) ∧
    AllReadsClear .halt [0#32, 0xFFFDFFFF#32] := 
  ⟨starts (by decide) _, by decide, starts (by decide) _, by decide, allClear (by decide), rfl⟩

/-! Completion: the last transaction's answer is given, and its poll is at its last read. -/

/-- `i` at position `mu`, with one read left of the poll running and the answer `Ok(w)` to come. -/
def lastRead (i : Instr) (mu : Nat) (w : Word) : State := { running i mu (answers w) with pollCount := 1 }

theorem witness_RdregCompletesWithTheDataWord :
    (lastRead (.rdreg 0#5) 2 9#32).mu = 2 ∧
    (lastRead (.rdreg 0#5) 2 9#32).bus.answer (.read 0xE000EDF8#32) = some (.ok 9#32, .script []) := by decide

theorem witness_WrregCompletesOnItsSecondPoll :
    (lastRead (.wrreg 0#5 9#32) 3 0x10000#32).mu = 3 ∧
    (lastRead (.wrreg 0#5 9#32) 3 0x10000#32).pollCount < (lastRead (.wrreg 0#5 9#32) 3 0x10000#32).params.pollLimit ∧
    (lastRead (.wrreg 0#5 9#32) 3 0x10000#32).bus.answer (.read 0xE000EDF0#32) = some (.ok 0x10000#32, .script []) ∧
    StatusBit.regrdy.test 0x10000#32 = true := by decide

theorem witness_HaltCompletesWithTheWordRead :
    (lastRead .halt 3 9#32).mu = 3 ∧
    (lastRead .halt 3 9#32).bus.answer (.read 0xE000EDF8#32) = some (.ok 9#32, .script []) := by decide

theorem witness_StepCompletesWithTheWordRead :
    (lastRead .step 4 9#32).mu = 4 ∧
    (lastRead .step 4 9#32).bus.answer (.read 0xE000EDF8#32) = some (.ok 9#32, .script []) := by decide

theorem witness_BpunitsCompletesWithTheCount :
    (lastRead .bpunits 1 0x10000#32).mu = 1 ∧
    (lastRead .bpunits 1 0x10000#32).pollCount < (lastRead .bpunits 1 0x10000#32).params.pollLimit ∧
    (lastRead .bpunits 1 0x10000#32).bus.answer (.read 0xE000EDF0#32) = some (.ok 0x10000#32, .script []) ∧
    StatusBit.regrdy.test 0x10000#32 = true := by decide

theorem witness_BpenAndSetbpCompleteWhenHalted_bpen :
    (lastRead (.bpen false) 1 0x20000#32).mu = 1 ∧
    (lastRead (.bpen false) 1 0x20000#32).pollCount < (lastRead (.bpen false) 1 0x20000#32).params.pollLimit ∧
    (lastRead (.bpen false) 1 0x20000#32).bus.answer (.read 0xE000EDF0#32) = some (.ok 0x20000#32, .script []) ∧
    StatusBit.halt.test 0x20000#32 = true := by decide

theorem witness_BpenAndSetbpCompleteWhenHalted_setbp :
    (lastRead (.setbp 4#32) 1 0x20000#32).mu = 1 ∧
    (lastRead (.setbp 4#32) 1 0x20000#32).pollCount < (lastRead (.setbp 4#32) 1 0x20000#32).params.pollLimit ∧
    (lastRead (.setbp 4#32) 1 0x20000#32).bus.answer (.read 0xE000EDF0#32) = some (.ok 0x20000#32, .script []) ∧
    StatusBit.halt.test 0x20000#32 = true := by decide

theorem witness_BasicregAnswersTheTable :
    (running (.basicreg 7#3) 0 (.script [])).mu = 0 := by decide

theorem witness_EnbpAndDisbpAreUnsupported :
    (running (.enbp 4#32) 0 (.script [])).mu = 0 ∧ (running (.disbp 4#32) 0 (.script [])).mu = 0 := by decide

theorem witness_RunWritesOnceAndCompletes :
    (running .run 0 (answers 5#32)).mu = 0 ∧
    (running .run 0 (answers 5#32)).bus.answer (.write 0xE000EDF0#32 0xA05F0000#32) = some (.ok 5#32, .script []) ∧
    (running .run 0 (.script [.err ⟨1⟩])).bus.answer (.write 0xE000EDF0#32 0xA05F0000#32) =
      some (.err ⟨1⟩, .script []) := by decide

theorem witness_WaithObservesTheHaltedBit :
    ({ running .waith 0 (.script []) with pollCount := 2 }).params.pollLimit ≤ 2 ∧
    (lastRead .waith 0 0x20000#32).mu = 0 ∧ (lastRead .waith 0 0x20000#32).pollCount < (lastRead .waith 0 0x20000#32).params.pollLimit ∧
    (lastRead .waith 0 0x20000#32).bus.answer (.read 0xE000EDF0#32) = some (.ok 0x20000#32, .script []) ∧
    StatusBit.halt.test 0x20000#32 = true ∧ StatusBit.halt.test 0xFFFDFFFF#32 = false ∧
    (running .waith 0 (.script [.err ⟨1⟩])).bus.answer (.read 0xE000EDF0#32) = some (.err ⟨1⟩, .script []) := by decide

theorem witness_BpenWritesTheControlRegister :
    (running (.bpen true) 0 (answers 0#32)).mu = 0 ∧
    (running (.bpen true) 0 (answers 0#32)).bus.answer (.write 0xE0002000#32 3#32) = some (.ok 0#32, .script []) ∧
    (2#32 ||| bit true = 3#32) := by decide

theorem witness_SetbpWritesTheComparator :
    (running (.setbp 0xFFFFFFFF#32) 0 (answers 0#32)).mu = 0 ∧
    (running (.setbp 0xFFFFFFFF#32) 0 (answers 0#32)).bus.answer (.write 0xE0002008#32 0xDFFFFFFD#32) =
      some (.ok 0#32, .script []) ∧ 0xC0000001#32 ||| (0xFFFFFFFF#32 &&& 0x1FFFFFFC#32) = 0xDFFFFFFD#32 := by decide

/-! States that meet the invariant: one with nothing in flight and one with a request in flight. -/

theorem witness_inv_nothing_in_flight :
    (running .halt 0 (answers 0#32)).Inv := 
  ⟨by decide, by decide, by decide, by decide, fun r h => by simp [running, State.reset] at h, by decide, by decide⟩

/-- HALT waiting for the answer to its last transaction. -/
def waiting : State := { running .halt 3 (.script []) with outstanding := some (.read 0xE000EDF8#32) }

theorem witness_inv_request_in_flight :
    waiting.Inv := 
  ⟨by decide, by decide, by decide, by decide, fun r h => ⟨rfl, .halt, by decide, by rw [← h]; decide⟩, by decide, by decide⟩

theorem witness_EveryStepKeepsTheInvariant :
    waiting.Inv ∧ ∃ s', step waiting = .next s' := ⟨witness_inv_request_in_flight, _, rfl⟩

theorem witness_HostMovesKeepTheInvariant :
    waiting.Inv ∧ ∃ s', hostMove (.answer (.ok 9#32)) waiting = some s' ∧ s' ≠ waiting :=
  ⟨witness_inv_request_in_flight, _, rfl, by decide⟩

theorem witness_HostMovesFollowTheTable :
    (State.reset.phase = .idle ∧ State.reset.cmdPort = none) ∧ (presented ⟨3#32, 0#32⟩).cmdPort ≠ none ∧
    waiting.phase ≠ .idle ∧ (waiting.outstanding ≠ none ∧ waiting.bus.hasGiven = false) ∧
    State.reset.outstanding = none ∧ (waiting.bus.give (.ok 9#32)).hasGiven = true ∧
    (fatal false).respValid = true ∧ waiting.respValid = false := by decide

/-- HALT waiting on the free bus of the reset state. -/
def waitingFree : State := { waiting with bus := .free 7 }

theorem witness_HostAnswerIsTaken :
    waitingFree.Running .halt ∧ dueRequest .halt waitingFree = some (.read 0xE000EDF8#32) ∧
    waitingFree.outstanding = some (.read 0xE000EDF8#32) ∧ waitingFree.bus.hasGiven = false := by decide

theorem witness_TheBlockNeverStops :
    waiting.Inv := witness_inv_request_in_flight

theorem witness_KeylessControlWritesAreIgnored :
    0xA05E0003#32 >>> 16 ≠ 0xA05F#32 := by decide

/-- The block about to run `i` on the reference target `t`. -/
abbrev OnTarget (i : Instr) (t : RefTarget) : Prop :=
  (running i 0 (.reference t)).Running i ∧ (running i 0 (.reference t)).mu = 0 ∧
    0 < (running i 0 (.reference t)).params.pollLimit ∧ (running i 0 (.reference t)).bus = .reference t

theorem witness_HaltOnTheReferenceTarget :
    OnTarget .halt RefTarget.initial := ⟨⟨rfl, rfl, by decide⟩, rfl, by decide, rfl⟩

theorem witness_WrregOnTheReferenceTarget :
    OnTarget (.wrreg 31#5 9#32) RefTarget.initial := 
  ⟨⟨rfl, rfl, by decide⟩, rfl, by decide, rfl⟩

theorem witness_StepOnTheReferenceTarget :
    OnTarget .step { RefTarget.initial with halted := true } ∧
    ({ RefTarget.initial with halted := true }).halted = true := ⟨⟨⟨rfl, rfl, by decide⟩, rfl, by decide, rfl⟩, rfl⟩

end Sys2Proof.Tests
end

section
/-!
The Register Codec, spec/40_codec.md: the bits of a field, the algebra of its getter and its setter (R111, R126), then
one equation per word the codec builds, and the statements about them.
-/

namespace Sys2Proof.Machine

/-! ### Fields: what the mask, the getter and the setter hold, bit by bit (R111) -/

namespace RegField

variable (f g : RegField) (w v : Word)

/-- The mask of a field's value before it is shifted to its place: `2^width - 1`. -/
def ones : Word := BitVec.ofNat 32 (2 ^ f.width - 1)

@[simp] theorem getElem_ones {i : Nat} (hi : i < 32) : f.ones[i] = decide (i < f.width) := by
  simp [ones, ← BitVec.getLsbD_eq_getElem, BitVec.getLsbD_ofNat, hi]

theorem mask_eq_ones_shiftLeft : f.mask = f.ones <<< f.lo := rfl

@[simp] theorem getElem_mask {i : Nat} (hi : i < 32) : f.mask[i] = decide (f.lo ≤ i ∧ i < f.lo + f.width) := by
  by_cases h : f.lo ≤ i
  · have below_top : i - f.lo < f.width ↔ i < f.lo + f.width := by omega
    simp [mask_eq_ones_shiftLeft, h, below_top]
  · simp [mask_eq_ones_shiftLeft, h, Nat.lt_of_not_le h]

@[simp] theorem getElem_get {i : Nat} (hi : i < 32) :
    (f.get w)[i] = (decide (i < f.width) && w.getLsbD (f.lo + i)) := by
  by_cases h : f.lo + i < 32
  · simp [get, h, Bool.and_comm]
  · simp [get, BitVec.getLsbD_of_ge w (f.lo + i) (by omega)]

@[simp] theorem getElem_set {i : Nat} (hi : i < 32) :
    (f.set w v)[i] = if f.lo ≤ i ∧ i < f.lo + f.width then v[i - f.lo] else w[i] := by
  by_cases h : f.lo ≤ i ∧ i < f.lo + f.width <;> simp [set, h]

/-! ### The algebra of the getter and the setter (R126) -/

theorem get_eq_extractLsb' : f.get w = (w.extractLsb' f.lo f.width).setWidth 32 := by
  ext i hi
  simp

/-- The getter of a field of one bit. -/
theorem get_single (n : Nat) : (RegField.mk n n).get w = bit (w.getLsbD n) := by
  rw [get_eq_extractLsb', width, Nat.sub_self]
  ext i hi
  rcases i with _ | i
  · cases h : w.getLsbD n <;> simp [bit, h]
  · cases w.getLsbD n <;> simp [bit]

theorem get_shiftLeft : f.get w <<< f.lo = w &&& f.mask := by
  ext i hi
  by_cases h : f.lo ≤ i
  · have below_top : i - f.lo < f.width ↔ i < f.lo + f.width := by omega
    simp [h, hi, below_top, Bool.and_comm]
  · simp [h, Nat.lt_of_not_le h]

theorem get_eq_get_iff : f.get w = f.get v ↔ w &&& f.mask = v &&& f.mask := by
  constructor
  · intro h
    rw [← get_shiftLeft, ← get_shiftLeft, h]
  · intro h
    rw [get, get, h]

/-- ORing `v` in sets the field to `v`'s value exactly when no bit of the field outside `v` was set. -/
theorem get_or_eq_iff : f.get (w ||| v) = f.get v ↔ w &&& (f.mask &&& ~~~v) = 0#32 := by
  rw [get_eq_get_iff]
  constructor
  · intro h
    calc w &&& (f.mask &&& ~~~v) = ((w ||| v) &&& f.mask) &&& ~~~v := by ext i; grind
      _ = 0#32 := by rw [h]; ext i; grind
  · intro h
    calc (w ||| v) &&& f.mask = (w &&& (f.mask &&& ~~~v)) ||| (v &&& f.mask) := by ext i; grind
      _ = v &&& f.mask := by rw [h, BitVec.zero_or]

variable {f g w v}

/-- Setting a field that is clear ORs the value in. -/
theorem set_of_clear (h : w &&& f.mask = 0#32) : f.set w v = w ||| ((v &&& f.ones) <<< f.lo) := by
  have keep : w &&& ~~~f.mask = w := by
    calc w &&& ~~~f.mask = (w &&& f.mask) ||| (w &&& ~~~f.mask) := by rw [h, BitVec.zero_or]
      _ = w := by rw [← BitVec.and_or_distrib_left, BitVec.or_not_self, BitVec.and_allOnes]
  rw [set, keep, BitVec.shiftLeft_and_distrib, mask_eq_ones_shiftLeft]

/-- A setter changes no bit outside its mask. -/
theorem set_and_of_disjoint {r : Word} (h : f.mask &&& r = 0#32) : f.set w v &&& r = w &&& r := by
  have off : ~~~f.mask &&& r = r := by
    calc ~~~f.mask &&& r = (f.mask &&& r) ||| (~~~f.mask &&& r) := by rw [h, BitVec.zero_or]
      _ = r := by rw [← BitVec.and_or_distrib_right, BitVec.or_not_self, BitVec.allOnes_and]
  rw [set, BitVec.and_or_distrib_right, BitVec.and_assoc, BitVec.and_assoc, off, h, BitVec.and_zero, BitVec.or_zero]

theorem get_set_of_disjoint (h : f.mask &&& g.mask = 0#32) : g.get (f.set w v) = g.get w := by
  rw [get_eq_get_iff, set_and_of_disjoint h]

theorem get_set_same (h : f.lo + f.width ≤ 32) : f.get (f.set w v) = v &&& f.ones := by
  ext i hi
  by_cases hw : i < f.width
  · have inside : f.lo + i < 32 := by omega
    simp [hw, inside]
  · simp [hw]

end RegField

theorem bit_and_one (b : Bool) : bit b &&& 1#32 = bit b := by cases b <;> decide

/-! ### The unlock key (R114) -/

theorem enableWrite_idem (w : Word) : enableWrite (enableWrite w) = enableWrite w := by
  rw [enableWrite, enableWrite, BitVec.or_assoc, BitVec.or_self]

theorem enableWrite_low_half (w : Word) : enableWrite w &&& 0xFFFF#32 = w &&& 0xFFFF#32 := by
  have clear : 0xA05F0000#32 &&& 0xFFFF#32 = 0#32 := by decide
  rw [enableWrite, BitVec.and_or_distrib_right, clear, BitVec.or_zero]

theorem dbgkey_enableWrite_iff (w : Word) : dbgkey (enableWrite w) = 0xA05F#32 ↔ w &&& 0x5FA00000#32 = 0#32 := by
  have key : fieldDbgkey.get 0xA05F0000#32 = 0xA05F#32 := by decide
  have outside : fieldDbgkey.mask &&& ~~~0xA05F0000#32 = 0x5FA00000#32 := by decide
  rw [← key, ← outside]
  exact fieldDbgkey.get_or_eq_iff w 0xA05F0000#32

/-- Settles O2: the key's bits lie above bit 15, and OR is associative and idempotent. -/
theorem enableWriteOrsTheKey : Obligations.EnableWriteOrsTheKey := by
  intro w
  exact ⟨rfl, enableWrite_idem w, enableWrite_low_half w, dbgkey_enableWrite_iff w⟩

/-! ### The Register-Select word (R116, R117) -/

theorem setWidth_and_ones_regsel (sel : BitVec 5) : sel.setWidth 32 &&& fieldRegsel.ones = sel.setWidth 32 := by
  ext i hi
  by_cases h : i < 5
  · simp [h, fieldRegsel, RegField.width]
  · simp [BitVec.getLsbD_of_ge sel i (by omega)]

/-- The Register-Select word is what the setters of its two fields build from 0. -/
theorem dcrsr_eq_set (wnr : Bool) (sel : BitVec 5) :
    dcrsr wnr sel = fieldRegsel.set (fieldRegwnr.set 0#32 (bit wnr)) (sel.setWidth 32) := by
  have direction : fieldRegwnr.set 0#32 (bit wnr) = bit wnr <<< 16 := by cases wnr <;> decide
  have clear : (bit wnr <<< 16) &&& fieldRegsel.mask = 0#32 := by cases wnr <;> decide
  rw [direction, RegField.set_of_clear clear, setWidth_and_ones_regsel]
  exact (congrArg (bit wnr <<< 16 ||| ·) (BitVec.shiftLeft_zero _)).symm

theorem dcrsr_reserved (wnr : Bool) (sel : BitVec 5) : dcrsr wnr sel &&& 0xFFFEFFE0#32 = 0#32 := by
  rw [dcrsr_eq_set, RegField.set_and_of_disjoint (by decide), RegField.set_and_of_disjoint (by decide),
    BitVec.zero_and]

theorem regwnr_dcrsr (wnr : Bool) (sel : BitVec 5) : regwnr (dcrsr wnr sel) = bit wnr := by
  rw [dcrsr_eq_set, regwnr, RegField.get_set_of_disjoint (by decide), RegField.get_set_same (by decide)]
  exact bit_and_one wnr

theorem regsel_dcrsr (wnr : Bool) (sel : BitVec 5) : regsel (dcrsr wnr sel) = sel := by
  rw [dcrsr_eq_set, regsel, RegField.get_set_same (by decide), setWidth_and_ones_regsel]
  exact BitVec.setWidth_setWidth_of_le sel (by decide)

/-- Settles O5: the word is what the field setters build from 0, so the getters read it back. -/
theorem registerSelectWord : Obligations.RegisterSelectWord := by
  intro wnr sel
  exact ⟨rfl, dcrsr_reserved wnr sel, regwnr_dcrsr wnr sel, regsel_dcrsr wnr sel⟩

/-! ### The Breakpoint Control word (R119) -/

/-- Settles O6: a getter reads the bits of its own field and no other. -/
theorem breakpointControlFields : Obligations.BreakpointControlFields := by
  intro w
  exact ⟨fieldNumCode.get_eq_extractLsb' w, RegField.get_single w 1, RegField.get_single w 0⟩

/-! ### The comparator word (R121, R122) -/

theorem bpComp_eq (mode c : Word) (en : Bool) :
    bpComp mode c en = ((mode &&& 3#32) <<< 30) ||| ((c <<< 2) &&& 0x1FFFFFFC#32) ||| bit en := by
  have withMode : setBpMatch 0#32 mode = (mode &&& 3#32) <<< 30 :=
    (RegField.set_of_clear BitVec.zero_and).trans BitVec.zero_or
  have withComp : setComp (setBpMatch 0#32 mode) c = ((mode &&& 3#32) <<< 30) ||| ((c <<< 2) &&& 0x1FFFFFFC#32) := by
    rw [setComp, RegField.set_of_clear, withMode]
    · exact congrArg ((mode &&& 3#32) <<< 30 ||| ·) (BitVec.shiftLeft_and_distrib c fieldComp.ones 2)
    · rw [setBpMatch, RegField.set_and_of_disjoint (by decide), BitVec.zero_and]
  have clear : setComp (setBpMatch 0#32 mode) c &&& fieldCompEnable.mask = 0#32 := by
    rw [setComp, setBpMatch, RegField.set_and_of_disjoint (by decide), RegField.set_and_of_disjoint (by decide),
      BitVec.zero_and]
  have enable : (bit en &&& fieldCompEnable.ones) <<< fieldCompEnable.lo = bit en := by cases en <;> decide
  rw [bpComp, setCompEnable, RegField.set_of_clear clear, enable, withComp]

theorem bpComp_reserved (mode c : Word) (en : Bool) : bpComp mode c en &&& 0x20000002#32 = 0#32 := by
  rw [bpComp, setCompEnable, setComp, setBpMatch, RegField.set_and_of_disjoint (by decide),
    RegField.set_and_of_disjoint (by decide), RegField.set_and_of_disjoint (by decide), BitVec.zero_and]

theorem getLsbD_bpComp_reserved (mode c : Word) (en : Bool) {i : Nat} (h : (0x20000002#32).getLsbD i = true) :
    (bpComp mode c en).getLsbD i = false := by
  have clear := congrArg (·.getLsbD i) (bpComp_reserved mode c en)
  simpa only [BitVec.getLsbD_and, h, Bool.and_true, BitVec.getLsbD_zero] using clear

theorem bpMatch_bpComp (mode c : Word) (en : Bool) : bpMatch (bpComp mode c en) = mode &&& 3#32 := by
  rw [bpComp, setCompEnable, setComp, setBpMatch, bpMatch, RegField.get_set_of_disjoint (by decide),
    RegField.get_set_of_disjoint (by decide)]
  exact RegField.get_set_same (by decide)

theorem comp_bpComp (mode c : Word) (en : Bool) : comp (bpComp mode c en) = c &&& 0x07FFFFFF#32 := by
  rw [bpComp, setCompEnable, setComp, comp, RegField.get_set_of_disjoint (by decide)]
  exact RegField.get_set_same (by decide)

theorem compEnable_bpComp (mode c : Word) (en : Bool) : compEnable (bpComp mode c en) = bit en := by
  rw [bpComp, setCompEnable, compEnable, RegField.get_set_same (by decide)]
  exact bit_and_one en

/-- Settles O7: the three setters fill disjoint fields of the word 0, so each field is read back. -/
theorem comparatorWord : Obligations.ComparatorWord := by
  intro mode c en
  exact ⟨bpComp_eq mode c en, getLsbD_bpComp_reserved mode c en (by decide),
    getLsbD_bpComp_reserved mode c en (by decide), bpMatch_bpComp mode c en, comp_bpComp mode c en,
    compEnable_bpComp mode c en⟩

/-! ### SETBP's word with the register semantics (R124) -/

/-- R121: the address a comparator word matches is the word's bits 28:2, in their place. -/
theorem matchAddress_eq (w : Word) : matchAddress w = w &&& 0x1FFFFFFC#32 :=
  fieldComp.get_shiftLeft w

/-- R124's expression is the getter of COMP, taken of the address. -/
theorem compArch_eq_comp (a : Word) : compArch a = comp a :=
  (BitVec.ushiftRight_and_distrib a fieldComp.mask 2).symm

theorem setbpWord_false_eq (a : Word) : setbpWord false a = 0xC0000001#32 ||| (a &&& 0x1FFFFFFC#32) := by
  have place : compArch a <<< 2 = a &&& 0x1FFFFFFC#32 := by
    rw [compArch_eq_comp]
    exact matchAddress_eq a
  calc setbpWord false a
      = (0xC0000000#32 ||| (compArch a <<< 2 &&& 0x1FFFFFFC#32)) ||| 1#32 := bpComp_eq _ _ _
    _ = (0xC0000000#32 ||| (a &&& 0x1FFFFFFC#32)) ||| 1#32 := by rw [place, BitVec.and_assoc, BitVec.and_self]
    _ = (0xC0000000#32 ||| 1#32) ||| (a &&& 0x1FFFFFFC#32) := by ac_rfl

theorem matchAddress_setbpWord_false (a : Word) : matchAddress (setbpWord false a) = a &&& 0x1FFFFFFC#32 := by
  have clear : 0xC0000001#32 &&& 0x1FFFFFFC#32 = 0#32 := by decide
  rw [matchAddress_eq, setbpWord_false_eq, BitVec.and_or_distrib_right, clear, BitVec.zero_or, BitVec.and_assoc,
    BitVec.and_self]

/-- Settles O8: the word is a function of `a &&& 0x1FFFFFFC` alone. -/
theorem setbpWordKeepsAddressBits28To2 : Obligations.SetbpWordKeepsAddressBits28To2 := by
  intro a
  refine ⟨?_, setbpWord_false_eq a, matchAddress_setbpWord_false a, fun a' same => ?_⟩
  · rw [compArch_eq_comp]
    exact fieldComp.get_eq_extractLsb' a
  · rw [setbpWord_false_eq, setbpWord_false_eq, same]

end Sys2Proof.Machine
end

section
/-!
The Register Codec's laws for every field (spec/40_codec.md R126), and the rest of its words: the Status/Control bits
and control words (R112, R113, R115) and SETBP's word as the source writes it (R125).
-/

namespace Sys2Proof.Machine

/-! ### The laws of a field of a 32-bit word (R126) -/

namespace RegField

variable {f g : RegField}

theorem lo_add_width (ordered : f.lo ≤ f.hi) : f.lo + f.width = f.hi + 1 := by
  rw [width]
  omega

theorem set_get (w : Word) : f.set w (f.get w) = w := by
  ext i hi
  rw [getElem_set]
  split
  next inside =>
    have below_top : i - f.lo < f.width := by omega
    have place : f.lo + (i - f.lo) = i := by omega
    rw [getElem_get, place, decide_eq_true below_top, Bool.true_and, BitVec.getLsbD_eq_getElem hi]
  next => rfl

theorem toNat_and_ones (v : Word) (fits : f.width ≤ 32) : (v &&& f.ones).toNat = v.toNat % 2 ^ f.width := by
  have bound : 2 ^ f.width ≤ 2 ^ 32 := Nat.pow_le_pow_right (by decide) fits
  have noWrap : (2 ^ f.width - 1) % 2 ^ 32 = 2 ^ f.width - 1 := Nat.mod_eq_of_lt (by omega)
  rw [BitVec.toNat_and, ones, BitVec.toNat_ofNat, noWrap, Nat.and_two_pow_sub_one_eq_mod]

theorem mask_and_mask_of_disjoint (ordered : f.lo ≤ f.hi) (ordered' : g.lo ≤ g.hi)
    (apart : g.hi < f.lo ∨ f.hi < g.lo) : f.mask &&& g.mask = 0#32 := by
  have top := lo_add_width ordered
  have top' := lo_add_width ordered'
  ext i hi
  rw [BitVec.getElem_and, getElem_mask, getElem_mask, BitVec.getElem_zero, Bool.and_eq_false_iff,
    decide_eq_false_iff_not, decide_eq_false_iff_not]
  omega

end RegField

/-- Settles O1: getter and setter agree bit by bit, and fields apart have masks apart. -/
theorem fieldGetSetLaws : Obligations.FieldGetSetLaws := by
  intro f ordered inWord
  have top := RegField.lo_add_width ordered
  refine ⟨RegField.set_get, fun w v => ?_, fun g ordered' _ apart w v => ?_⟩
  · rw [RegField.get_set_same (by omega), RegField.toNat_and_ones v (by omega)]
  · exact RegField.get_set_of_disjoint (RegField.mask_and_mask_of_disjoint ordered ordered' apart)

/-! ### The Status/Control word: its bits (R112), its control words (R113, R115) -/

theorem bit_eq_one (b : Bool) : (bit b == 1#32) = b := by cases b <;> decide

/-- A poll tests one bit of the Status/Control word (R140, R141). -/
theorem test_regrdy (w : Word) : StatusBit.regrdy.test w = w.getLsbD 16 := by
  rw [StatusBit.test, sRegrdy, fieldSRegrdy, RegField.get_single, bit_eq_one]

@[inherit_doc test_regrdy]
theorem test_halt (w : Word) : StatusBit.halt.test w = w.getLsbD 17 := by
  rw [StatusBit.test, sHalt, fieldSHalt, RegField.get_single, bit_eq_one]

theorem dbgkey_eq (w : Word) : dbgkey w = w >>> 16 := by
  ext i hi
  rw [dbgkey, RegField.getElem_get, BitVec.getElem_ushiftRight]
  by_cases inKey : i < fieldDbgkey.width
  · rw [decide_eq_true inKey, Bool.true_and]
    rfl
  · rw [decide_eq_false inKey, Bool.false_and]
    have above : 32 ≤ 16 + i := by
      have : fieldDbgkey.width = 16 := rfl
      omega
    exact (BitVec.getLsbD_of_ge w _ above).symm

/-- Settles O4: each getter of one bit reads the bit at its field's position. -/
theorem statusBitsAreReadAtTheirPlaces : Obligations.StatusBitsAreReadAtTheirPlaces := by
  intro w
  exact ⟨RegField.get_single w 25, RegField.get_single w 24, RegField.get_single w 19, RegField.get_single w 18,
    RegField.get_single w 17, RegField.get_single w 16, RegField.get_single w 3, RegField.get_single w 2,
    RegField.get_single w 1, RegField.get_single w 0, dbgkey_eq w, test_regrdy w, test_halt w⟩

theorem dhcsrCtrl_eq (m st h d : Bool) :
    dhcsrCtrl m st h d = 0xA05F0000#32 ||| bit m <<< 3 ||| bit st <<< 2 ||| bit h <<< 1 ||| bit d := by
  revert m st h d
  decide

/-- The control word that HALT writes (R115). -/
theorem haltWord_eq : dhcsrCtrl false false true true = 0xA05F0003#32 := by decide
/-- The control word that RUN writes (R115). -/
theorem runWord_eq : dhcsrCtrl false false false false = 0xA05F0000#32 := by decide
/-- The control word that STEP writes (R115). -/
theorem stepWord_eq : dhcsrCtrl true true false true = 0xA05F000D#32 := by decide

/-- Settles O3: the sixteen settings of the four control bits, and three of them written out. -/
theorem statusControlWords : Obligations.StatusControlWords :=
  ⟨dhcsrCtrl_eq, haltWord_eq, runWord_eq, stepWord_eq⟩

/-! ### SETBP's word with the source's expression (R125) -/

theorem compCompat_eq (a : Word) : compCompat a = compArch a ||| 0x00FFFFFF#32 := by
  have inField : 0x00FFFFFF#32 &&& 0x07FFFFFF#32 = 0x00FFFFFF#32 := by decide
  rw [compCompat, BitVec.and_or_distrib_right, inField, compArch]

theorem compCompat_shiftLeft (a : Word) : compCompat a <<< 2 = (a &&& 0x1C000000#32) ||| 0x03FFFFFC#32 := by
  have place : compArch a <<< 2 = a &&& 0x1FFFFFFC#32 := by
    rw [compArch_eq_comp]
    exact matchAddress_eq a
  have parts : 0x1FFFFFFC#32 = 0x1C000000#32 ||| 0x03FFFFFC#32 := by decide
  have shifted : 0x00FFFFFF#32 <<< 2 = 0x03FFFFFC#32 := by decide
  calc compCompat a <<< 2
      = (a &&& 0x1FFFFFFC#32) ||| 0x03FFFFFC#32 := by
        rw [compCompat_eq, BitVec.shiftLeft_or_distrib, place, shifted]
    _ = (a &&& 0x1C000000#32) ||| ((a &&& 0x03FFFFFC#32) ||| 0x03FFFFFC#32) := by
        rw [parts, BitVec.and_or_distrib_left, BitVec.or_assoc]
    _ = (a &&& 0x1C000000#32) ||| 0x03FFFFFC#32 := by
        congr 1
        ext i
        simp

theorem setbpWord_true_eq (a : Word) :
    setbpWord true a = 0xC0000001#32 ||| (a &&& 0x1C000000#32) ||| 0x03FFFFFC#32 := by
  have inField : 0x1C000000#32 &&& 0x1FFFFFFC#32 = 0x1C000000#32 ∧ 0x03FFFFFC#32 &&& 0x1FFFFFFC#32 = 0x03FFFFFC#32 := by
    decide
  calc setbpWord true a
      = (0xC0000000#32 ||| (compCompat a <<< 2 &&& 0x1FFFFFFC#32)) ||| 1#32 := bpComp_eq _ _ _
    _ = (0xC0000000#32 ||| ((a &&& 0x1C000000#32) ||| 0x03FFFFFC#32)) ||| 1#32 := by
        rw [compCompat_shiftLeft, BitVec.and_or_distrib_right, BitVec.and_assoc, inField.1, inField.2]
    _ = (0xC0000000#32 ||| 1#32) ||| (a &&& 0x1C000000#32) ||| 0x03FFFFFC#32 := by ac_rfl

theorem bpCtrlUnlocked_setbpWord (compat : Bool) (a : Word) : bpCtrlUnlocked (setbpWord compat a) = false := by
  rw [bpCtrlUnlocked, bpKey, fieldKey, RegField.get_single, bit_eq_one]
  exact getLsbD_bpComp_reserved _ _ _ (by decide)

/-- Settles O9: mode and enable are read back as the setters of the comparator word wrote them; bit 1 is reserved. -/
theorem sourceCompatSetbpWord : Obligations.SourceCompatSetbpWord := by
  intro a
  have mode (compat : Bool) : bpMatch (setbpWord compat a) = 3#32 := bpMatch_bpComp _ _ _
  have enable (compat : Bool) : compEnable (setbpWord compat a) = 1#32 := compEnable_bpComp _ _ _
  exact ⟨setbpWord_true_eq a, bpCtrlUnlocked_setbpWord true a, mode true, enable true, mode false, enable false⟩

end Sys2Proof.Machine
end

section
/-!
The decoder and the encoder, spec/30_encoding.md: what a row of the opcode map selects (R92, R97), and that encoding and
decoding are inverse to each other (R93, R99).
-/

namespace Sys2Proof

open Machine (RegField bit)

/-! ### Rows (R94, R97) -/

theorem Opcode.mem_all (op : Opcode) : op ∈ Opcode.all := by
  cases op <;> decide

theorem Opcode.number_injective : ∀ {o o' : Opcode}, o.number = o'.number → o = o' := by
  have onAll : ∀ o ∈ Opcode.all, ∀ o' ∈ Opcode.all, o.number = o'.number → o = o' := by decide
  exact fun {o o'} => onAll o o.mem_all o' o'.mem_all

/-- A row selects a word with its number in OP and every bit outside its fields 0. -/
theorem Opcode.selects_iff {op : Opcode} {cmd : Word} :
    op.selects cmd = true ↔ op.number = cmd &&& 0xF#32 ∧ cmd &&& ~~~(op.operandBits ||| 0xF#32) = 0#32 := by
  have mask : op.mask = 0xF#32 ||| ~~~(op.operandBits ||| 0xF#32) := by cases op <;> decide
  have inOp : op.number &&& 0xF#32 = op.number := by cases op <;> decide
  have outsideOp : op.number &&& ~~~(op.operandBits ||| 0xF#32) = 0#32 := by cases op <;> decide
  have maskOp : op.mask &&& 0xF#32 = 0xF#32 := by cases op <;> decide
  have maskReserved : op.mask &&& ~~~(op.operandBits ||| 0xF#32) = ~~~(op.operandBits ||| 0xF#32) := by
    cases op <;> decide
  have pattern : op.pattern = op.number := by cases op <;> rfl
  rw [Opcode.selects, beq_iff_eq, pattern]
  constructor
  · intro selected
    constructor
    · rw [← maskOp, ← BitVec.and_assoc, selected, inOp]
    · rw [← maskReserved, ← BitVec.and_assoc, selected, outsideOp]
  · rintro ⟨number, reserved⟩
    rw [mask, BitVec.and_or_distrib_left, ← number, reserved, BitVec.or_zero]

theorem Opcode.selects_unique {o o' : Opcode} {cmd : Word} (h : o.selects cmd = true) (h' : o'.selects cmd = true) :
    o = o' :=
  number_injective ((selects_iff.mp h).1.trans (selects_iff.mp h').1.symm)

/-- Settles O12: a row that selects a word has the word's OP as its number. -/
theorem atMostOneRowSelects : Obligations.AtMostOneRowSelects :=
  fun _ _ _ => Opcode.selects_unique

theorem selects_of_selectOpcode {cmd : Word} {op : Opcode} (found : selectOpcode cmd = some op) :
    op.selects cmd = true := by
  rw [selectOpcode] at found
  simpa using List.find?_some found

theorem selectOpcode_eq_some_iff {cmd : Word} {op : Opcode} :
    selectOpcode cmd = some op ↔ op.selects cmd = true := by
  refine ⟨selects_of_selectOpcode, fun selected => ?_⟩
  rcases found : selectOpcode cmd with _ | op'
  · exact absurd selected (List.find?_eq_none.mp found op op.mem_all)
  · rw [Opcode.selects_unique (selects_of_selectOpcode found) selected]

theorem reservedBitsClear_iff {cmd : Word} : reservedBitsClear cmd = true ↔ ∃ op, Opcode.selects op cmd = true := by
  simp [reservedBitsClear, Opcode.selects_iff, Opcode.mem_all]

theorem selectOpcode_eq_none_iff {cmd : Word} : selectOpcode cmd = none ↔ reservedBitsClear cmd = false := by
  rw [Option.eq_none_iff_forall_not_mem, ← Bool.not_eq_true, reservedBitsClear_iff, not_exists]
  exact forall_congr' fun op => not_congr selectOpcode_eq_some_iff

/-- OP is the word's remainder by 16. -/
theorem toNat_opField (cmd : Word) : (cmd &&& 0xF#32).toNat = cmd.toNat % 16 := by
  rw [BitVec.toNat_and]
  exact Nat.and_two_pow_sub_one_eq_mod cmd.toNat 4

theorem opcodeUsed_eq_false_iff {cmd : Word} :
    opcodeUsed cmd = false ↔ cmd.toNat % 16 = 0 ∨ 13 ≤ cmd.toNat % 16 := by
  rw [opcodeUsed, toNat_opField, Bool.and_eq_false_iff, decide_eq_false_iff_not, decide_eq_false_iff_not]
  omega

/-- Every row has a used OP. -/
theorem opcodeUsed_of_selects {op : Opcode} {cmd : Word} (h : op.selects cmd = true) : opcodeUsed cmd = true := by
  rw [opcodeUsed, ← (Opcode.selects_iff.mp h).1]
  cases op <;> decide

/-! ### The decoder's two answers (R97) -/

theorem decode_eq_ok_iff {cmd arg : Word} {i : Instr} :
    decode cmd arg = .ok i ↔ ∃ op, Opcode.selects op cmd = true ∧ op.withOperands cmd arg = i := by
  rcases found : selectOpcode cmd with _ | op
  · have none_selects (op : Opcode) : ¬ op.selects cmd = true := by
      rw [← selectOpcode_eq_some_iff, found]
      exact nofun
    simp [decode, found, none_selects]
  · have only (op' : Opcode) : op'.selects cmd = true ↔ op = op' := by
      rw [← selectOpcode_eq_some_iff, found, Option.some.injEq]
    simp [decode, found, only]

theorem decode_eq_error_iff {cmd arg : Word} {e : DecodeError} :
    decode cmd arg = .error e ↔
      selectOpcode cmd = none ∧ (if opcodeUsed cmd then .reservedBitSet else .unusedOpcode) = e := by
  rcases found : selectOpcode cmd with _ | op <;> simp [decode, found]

/-- Settles O13: a word no row selects has an unused OP, or a reserved bit set. -/
theorem illegalWordsAreTheTwoCases : Obligations.IllegalWordsAreTheTwoCases := by
  intro cmd arg
  rw [decode_eq_error_iff, decode_eq_error_iff, ← opcodeUsed_eq_false_iff, selectOpcode_eq_none_iff]
  rcases used : opcodeUsed cmd with _ | _
  · have reserved : reservedBitsClear cmd = false := by
      rw [← selectOpcode_eq_none_iff, Option.eq_none_iff_forall_not_mem]
      intro op found
      rw [opcodeUsed_of_selects (selectOpcode_eq_some_iff.mp found)] at used
      cases used
    simp [reserved]
  · simp

/-- Settles O14, by evaluation. -/
theorem sampleWordsDecode : Obligations.SampleWordsDecode := by
  unfold Obligations.SampleWordsDecode
  decide

/-! ### Encoding what was decoded (R93, R99) -/

theorem setWidth_ofBool (b : Bool) : (BitVec.ofBool b).setWidth 32 = bit b := by cases b <;> decide

theorem regField_shiftLeft (cmd : Word) : (regField cmd).setWidth 32 <<< 4 = cmd &&& 0x1F0#32 := by
  have field : (RegField.mk 8 4).get cmd = (regField cmd).setWidth 32 := RegField.get_eq_extractLsb' ⟨8, 4⟩ cmd
  rw [← field]
  exact RegField.get_shiftLeft ⟨8, 4⟩ cmd

theorem enField_shiftLeft (cmd : Word) : (BitVec.ofBool (enField cmd)).setWidth 32 <<< 12 = cmd &&& 0x1000#32 := by
  rw [enField, setWidth_ofBool, ← RegField.get_single]
  exact RegField.get_shiftLeft ⟨12, 12⟩ cmd

theorem selField_shiftLeft (cmd : Word) : (selField cmd).setWidth 32 <<< 16 = cmd &&& 0x70000#32 := by
  have field : (RegField.mk 18 16).get cmd = (selField cmd).setWidth 32 := RegField.get_eq_extractLsb' ⟨18, 16⟩ cmd
  rw [← field]
  exact RegField.get_shiftLeft ⟨18, 16⟩ cmd

/-- The encoder puts the operand bits a row read back in their places. -/
theorem encode_withOperands_cmd (op : Opcode) (cmd arg : Word) :
    (encode (op.withOperands cmd arg)).cmd = (cmd &&& op.operandBits) ||| op.pattern := by
  cases op with
  | rdreg => exact congrArg (· ||| 0x1#32) (regField_shiftLeft cmd)
  | wrreg => exact congrArg (· ||| 0x2#32) (regField_shiftLeft cmd)
  | bpen => exact congrArg (· ||| 0x8#32) (enField_shiftLeft cmd)
  | basicreg => exact congrArg (· ||| 0xC#32) (selField_shiftLeft cmd)
  | halt | run | step | waith | bpunits | setbp | enbp | disbp =>
    rw [Opcode.operandBits, BitVec.and_zero, BitVec.zero_or]
    rfl

theorem encode_cmd_of_selects {op : Opcode} {cmd : Word} (arg : Word) (h : op.selects cmd = true) :
    (encode (op.withOperands cmd arg)).cmd = cmd := by
  have outside : op.mask = ~~~op.operandBits := by cases op <;> decide
  rw [Opcode.selects, beq_iff_eq] at h
  rw [encode_withOperands_cmd, ← h, outside, ← BitVec.and_or_distrib_left, BitVec.or_not_self, BitVec.and_allOnes]

/-- Settles O11: the row that selected the word gives back its OP and its operand bits, and no other bit is set. -/
theorem encodeOfDecode : Obligations.EncodeOfDecode := by
  intro cmd arg i decoded
  obtain ⟨op, selected, rfl⟩ := decode_eq_ok_iff.mp decoded
  refine ⟨encode_cmd_of_selects arg selected, ?_⟩
  cases op <;> rfl

/-! ### Decoding what was encoded (R93, R99) -/

/-- The row of a command. -/
def Instr.opcode : Instr → Opcode
  | .rdreg _ => .rdreg
  | .wrreg _ _ => .wrreg
  | .halt => .halt
  | .run => .run
  | .step => .step
  | .waith => .waith
  | .bpunits => .bpunits
  | .bpen _ => .bpen
  | .setbp _ => .setbp
  | .enbp _ => .enbp
  | .disbp _ => .disbp
  | .basicreg _ => .basicreg

/-- The operand lies in the bits that the row's mask leaves out. -/
theorem selects_encode (i : Instr) : i.opcode.selects (encode i).cmd = true := by
  cases i with
  | rdreg reg => revert reg; decide
  | wrreg reg value =>
    change Opcode.wrreg.selects (reg.setWidth 32 <<< 4 ||| 0x2#32) = true
    revert reg
    decide
  | bpen enable => revert enable; decide
  | basicreg sel => revert sel; decide
  | halt | run | step | waith | bpunits => decide
  | setbp address => exact (by decide : Opcode.setbp.selects 0x9#32 = true)
  | enbp address => exact (by decide : Opcode.enbp.selects 0xA#32 = true)
  | disbp address => exact (by decide : Opcode.disbp.selects 0xB#32 = true)

/-- The row of a command reads the operands that the encoder wrote. -/
theorem withOperands_encode (i : Instr) : i.opcode.withOperands (encode i).cmd (encode i).arg = i := by
  cases i with
  | rdreg reg => revert reg; decide
  | wrreg reg value =>
    have register : regField (reg.setWidth 32 <<< 4 ||| 0x2#32) = reg := by revert reg; decide
    exact congrArg (Instr.wrreg · value) register
  | bpen enable => revert enable; decide
  | basicreg sel => revert sel; decide
  | halt | run | step | waith | bpunits | setbp address | enbp address | disbp address => rfl

/-- Settles O10: the command's own row selects its word, and reads the operands back. -/
theorem decodeOfEncode : Obligations.DecodeOfEncode := by
  intro i
  exact decode_eq_ok_iff.mpr ⟨i.opcode, selects_encode i, withOperands_encode i⟩

end Sys2Proof
end

section
/-!
What one step of a command can do (spec/10_state.md R21, 20_memory.md R68, 41_core_reg_transfer.md R140), said once as
`StepOutcome`, with one rule per outcome; then what each outcome leaves unchanged.
-/

namespace Sys2Proof.Machine

/-! ### The frame of the operations -/

@[simp] theorem finishCommand_outstanding (f : Finish) (v : Word) (s : State) :
    (finishCommand f v s).outstanding = s.outstanding := by cases f <;> rfl
@[simp] theorem finishCommand_trace (f : Finish) (v : Word) (s : State) :
    (finishCommand f v s).trace = s.trace := by cases f <;> rfl
@[simp] theorem finishCommand_bus (f : Finish) (v : Word) (s : State) :
    (finishCommand f v s).bus = s.bus := by cases f <;> rfl
@[simp] theorem finishCommand_mu (f : Finish) (v : Word) (s : State) :
    (finishCommand f v s).mu = s.mu := by cases f <;> rfl
@[simp] theorem finishCommand_pollCount (f : Finish) (v : Word) (s : State) :
    (finishCommand f v s).pollCount = s.pollCount := by cases f <;> rfl
@[simp] theorem finishCommand_latch (f : Finish) (v : Word) (s : State) :
    (finishCommand f v s).latch = s.latch := by cases f <;> rfl
@[simp] theorem finishCommand_cmd (f : Finish) (v : Word) (s : State) :
    (finishCommand f v s).cmd = s.cmd := by cases f <;> rfl
@[simp] theorem finishCommand_arg (f : Finish) (v : Word) (s : State) :
    (finishCommand f v s).arg = s.arg := by cases f <;> rfl
@[simp] theorem finishCommand_params (f : Finish) (v : Word) (s : State) :
    (finishCommand f v s).params = s.params := by cases f <;> rfl
@[simp] theorem finishCommand_cmdPort (f : Finish) (v : Word) (s : State) :
    (finishCommand f v s).cmdPort = s.cmdPort := by cases f <;> rfl
@[simp] theorem finishCommand_resetReq (f : Finish) (v : Word) (s : State) :
    (finishCommand f v s).resetReq = s.resetReq := by cases f <;> rfl

theorem finishCommand_phase_ne_busy (f : Finish) (v : Word) (s : State) : (finishCommand f v s).phase ≠ .busy := by
  obtain ⟨-, -, -, -, -, -, -, -, -, -, -, ended⟩ := finishCommand_frame f v s
  exact ended

/-! ### The state of a command between two of its transactions -/

/-- The state `s` of a running command once it has made the transactions `txs`: `mu` and `pollCount` as given, `b` what
is behind the port then; every other field is that of `s`. -/
def State.midway (s : State) (mu pollCount : Nat) (txs : List BusTransaction) (b : Bus) : State :=
  { s with mu := mu, pollCount := pollCount, outstanding := none, bus := b, trace := s.trace ++ txs }

section
variable (s : State) (mu pollCount : Nat) (txs : List BusTransaction) (b : Bus)

@[simp] theorem midway_phase : (s.midway mu pollCount txs b).phase = s.phase := rfl
@[simp] theorem midway_cmd : (s.midway mu pollCount txs b).cmd = s.cmd := rfl
@[simp] theorem midway_arg : (s.midway mu pollCount txs b).arg = s.arg := rfl
@[simp] theorem midway_mu : (s.midway mu pollCount txs b).mu = mu := rfl
@[simp] theorem midway_pollCount : (s.midway mu pollCount txs b).pollCount = pollCount := rfl
@[simp] theorem midway_latch : (s.midway mu pollCount txs b).latch = s.latch := rfl
@[simp] theorem midway_respValid : (s.midway mu pollCount txs b).respValid = s.respValid := rfl
@[simp] theorem midway_respStatus : (s.midway mu pollCount txs b).respStatus = s.respStatus := rfl
@[simp] theorem midway_respData : (s.midway mu pollCount txs b).respData = s.respData := rfl
@[simp] theorem midway_respErr : (s.midway mu pollCount txs b).respErr = s.respErr := rfl
@[simp] theorem midway_outstanding : (s.midway mu pollCount txs b).outstanding = none := rfl
@[simp] theorem midway_params : (s.midway mu pollCount txs b).params = s.params := rfl
@[simp] theorem midway_cmdPort : (s.midway mu pollCount txs b).cmdPort = s.cmdPort := rfl
@[simp] theorem midway_resetReq : (s.midway mu pollCount txs b).resetReq = s.resetReq := rfl
@[simp] theorem midway_bus : (s.midway mu pollCount txs b).bus = b := rfl
@[simp] theorem midway_trace : (s.midway mu pollCount txs b).trace = s.trace ++ txs := rfl

@[simp] theorem midway_midway (mu' pollCount' : Nat) (txs' : List BusTransaction) (b' : Bus) :
    (s.midway mu pollCount txs b).midway mu' pollCount' txs' b' = s.midway mu' pollCount' (txs ++ txs') b' := by
  simp [State.midway, List.append_assoc]

/-- A command that ends on scripted answers is completed where it stands. -/
theorem complete_midway (rest : List BusAnswer) (st : Status) (d : Word) (e : Option TransportError) :
    complete st d e (s.midway mu pollCount txs (.script rest)) = s.endedAfter mu pollCount txs rest st d e := rfl

end

/-! ### One step of a command, outcome by outcome -/

/-- The count of reads with which an action starts: a poll starts from 0 (R141). -/
def startCount : BusAction → Nat → Nat
  | .poll _, _ => 0
  | .write _ _, n => n
  | .read _, n => n
  | .readLatch _, n => n

/-- The state once action `a` of a command has been answered `Ok(w)`: `n` reads counted from there. -/
def State.afterAction (s : State) (a : BusAction) (w : Word) (b : Bus) (n : Nat) : State :=
  (absorbed a w s).midway (s.mu + 1) n [⟨a.request, .ok w⟩] b

section
variable {i : Instr} {s : State} {a : BusAction} {w : Word} {b : Bus}

theorem advance_eq_afterAction {q : Sequence} {a' : BusAction} (next : q.actions[s.mu + 1]? = some a') (v : Word) :
    advance q v (absorbed a w (recordTransaction a.request (.ok w) b s)) =
      s.afterAction a w b (startCount a' (absorbed a w s).pollCount) := by
  cases a' <;> simp only [advance, absorbed_mu, recordTransaction_mu, next] <;> cases a <;> rfl

theorem advance_eq_finishCommand {q : Sequence} (last : q.actions[s.mu + 1]? = none) (v : Word) :
    advance q v (absorbed a w (recordTransaction a.request (.ok w) b s)) =
      finishCommand q.finish v (s.afterAction a w b (absorbed a w s).pollCount) := by
  simp only [advance, absorbed_mu, recordTransaction_mu, last]
  cases a <;> rfl

/-- A poll without a read left ends with TIMEOUT (R140). -/
theorem exec_timesOut {p : StatusBit} (at_mu : (commandSequence s.params i).actions[s.mu]? = some (.poll p))
    (used : s.params.pollLimit ≤ s.pollCount) : exec i s = .next (raiseTimeout s) := by
  rw [exec_eq_runSequence, runSequence_at at_mu]
  exact congrArg _ (pollOnce_exhausted used)

/-- A due request without an answer is in flight (R246). -/
theorem exec_waits {r : BusRequest} (due : dueRequest i s = some r) (silent : s.bus.answer r = none) :
    exec i s = .next (awaitAnswer r s) := by
  obtain ⟨a, at_mu, can, rfl⟩ := dueRequest_some due
  rw [exec_eq_runSequence, runSequence_at at_mu]
  rcases perform_cases (commandSequence s.params i) a s with
    ⟨h, -⟩ | ⟨-, -, h⟩ | ⟨-, _, _, ha, -⟩ | ⟨-, _, _, _, ha, -⟩ | ⟨-, _, _, ha, -⟩
  · exact absurd can h
  · rw [h]
  all_goals exact absurd (silent.symm.trans ha) nofun

/-- An error answer ends a command with TRANSPORT (R201). -/
theorem exec_fails {r : BusRequest} {e : TransportError} (due : dueRequest i s = some r)
    (answered : s.bus.answer r = some (.err e, b)) :
    exec i s = .next (raiseTransport e (recordTransaction r (.err e) b s)) := by
  obtain ⟨a, at_mu, can, rfl⟩ := dueRequest_some due
  rw [exec_eq_runSequence, runSequence_at at_mu]
  rcases perform_cases (commandSequence s.params i) a s with
    ⟨h, -⟩ | ⟨-, ha, -⟩ | ⟨-, _, _, ha, h⟩ | ⟨-, _, _, _, ha, -⟩ | ⟨-, _, _, ha, -⟩
  · exact absurd can h
  · exact absurd (answered.symm.trans ha) nofun
  · cases answered.symm.trans ha
    rw [h]
  all_goals exact absurd (answered.symm.trans ha) nofun

/-- A status read that shows the bit clear is counted (R140). -/
theorem exec_pollsOn {p : StatusBit} (at_mu : (commandSequence s.params i).actions[s.mu]? = some (.poll p))
    (few : s.pollCount < s.params.pollLimit) (answered : s.bus.answer (.read dhcsrAddr) = some (.ok w, b))
    (clear : p.test w = false) :
    exec i s = .next (s.midway s.mu (s.pollCount + 1) [⟨.read dhcsrAddr, .ok w⟩] b) := by
  rw [exec_eq_runSequence, runSequence_at at_mu]
  exact congrArg _ (pollOnce_clear few answered clear)

/-- An action answered `Ok`, a poll by a word that shows its bit, lets the sequence go on. -/
theorem exec_advances (at_mu : (commandSequence s.params i).actions[s.mu]? = some a) (can : canTransact a s)
    (answered : s.bus.answer a.request = some (.ok w, b)) (shown : ∀ p, a = .poll p → p.test w = true) :
    exec i s = .next (advance (commandSequence s.params i) (carried a w)
      (absorbed a w (recordTransaction a.request (.ok w) b s))) := by
  rw [exec_eq_runSequence, runSequence_at at_mu]
  rcases perform_cases (commandSequence s.params i) a s with
    ⟨h, -⟩ | ⟨-, ha, -⟩ | ⟨-, _, _, ha, -⟩ | ⟨-, _, _, p, ha, hp, clear, -⟩ | ⟨-, _, _, ha, -, h⟩
  · exact absurd can h
  · exact absurd (answered.symm.trans ha) nofun
  · exact absurd (answered.symm.trans ha) nofun
  · cases answered.symm.trans ha
    exact absurd ((shown p hp).symm.trans clear) nofun
  · cases answered.symm.trans ha
    rw [h]

/-- With an action after it, the command goes on there. -/
theorem exec_moves {a' : BusAction} (at_mu : (commandSequence s.params i).actions[s.mu]? = some a)
    (next : (commandSequence s.params i).actions[s.mu + 1]? = some a') (can : canTransact a s)
    (answered : s.bus.answer a.request = some (.ok w, b)) (shown : ∀ p, a = .poll p → p.test w = true) :
    exec i s = .next (s.afterAction a w b (startCount a' (absorbed a w s).pollCount)) := by
  rw [exec_advances at_mu can answered shown, advance_eq_afterAction next]

/-- With no action after it, the command ends. -/
theorem exec_ends (at_mu : (commandSequence s.params i).actions[s.mu]? = some a)
    (last : (commandSequence s.params i).actions[s.mu + 1]? = none) (can : canTransact a s)
    (answered : s.bus.answer a.request = some (.ok w, b)) (shown : ∀ p, a = .poll p → p.test w = true) :
    exec i s = .next (finishCommand (commandSequence s.params i).finish (carried a w)
      (s.afterAction a w b (absorbed a w s).pollCount)) := by
  rw [exec_advances at_mu can answered shown, advance_eq_finishCommand last]

end

/-- All one step of command `i` can do from the state `s`. -/
inductive StepOutcome (i : Instr) (s : State) : State → Prop
  /-- A poll has no read left. -/
  | timesOut {p : StatusBit} (at_mu : (commandSequence s.params i).actions[s.mu]? = some (.poll p))
      (used : s.params.pollLimit ≤ s.pollCount) : StepOutcome i s (raiseTimeout s)
  /-- The bus does not answer. -/
  | waits {r : BusRequest} (due : dueRequest i s = some r) (silent : s.bus.answer r = none) :
      StepOutcome i s (awaitAnswer r s)
  /-- The bus answers with an error. -/
  | fails {r : BusRequest} {e : TransportError} {b : Bus} (due : dueRequest i s = some r)
      (answered : s.bus.answer r = some (.err e, b)) :
      StepOutcome i s (raiseTransport e (recordTransaction r (.err e) b s))
  /-- A poll's read shows the bit clear. -/
  | pollsOn {p : StatusBit} {w : Word} {b : Bus}
      (at_mu : (commandSequence s.params i).actions[s.mu]? = some (.poll p))
      (few : s.pollCount < s.params.pollLimit) (answered : s.bus.answer (.read dhcsrAddr) = some (.ok w, b))
      (clear : p.test w = false) :
      StepOutcome i s (s.midway s.mu (s.pollCount + 1) [⟨.read dhcsrAddr, .ok w⟩] b)
  /-- The action at `mu` is done and `mu` moves on to the next. -/
  | moves {a a' : BusAction} {w : Word} {b : Bus} (at_mu : (commandSequence s.params i).actions[s.mu]? = some a)
      (next : (commandSequence s.params i).actions[s.mu + 1]? = some a') (can : canTransact a s)
      (answered : s.bus.answer a.request = some (.ok w, b)) (shown : ∀ p, a = .poll p → p.test w = true) :
      StepOutcome i s (s.afterAction a w b (startCount a' (absorbed a w s).pollCount))
  /-- The last action is done. -/
  | ends {a : BusAction} {w : Word} {b : Bus} (at_mu : (commandSequence s.params i).actions[s.mu]? = some a)
      (last : (commandSequence s.params i).actions[s.mu + 1]? = none) (can : canTransact a s)
      (answered : s.bus.answer a.request = some (.ok w, b)) (shown : ∀ p, a = .poll p → p.test w = true) :
      StepOutcome i s (finishCommand (commandSequence s.params i).finish (carried a w)
        (s.afterAction a w b (absorbed a w s).pollCount))
  /-- A command without actions ends at once. -/
  | endsAtOnce (none_at_mu : (commandSequence s.params i).actions[s.mu]? = none) (start : s.mu = 0) :
      StepOutcome i s (finishCommand (commandSequence s.params i).finish 0#32 s)

theorem perform_outcome {i : Instr} {s : State} {a : BusAction}
    (at_mu : (commandSequence s.params i).actions[s.mu]? = some a) :
    StepOutcome i s (perform (commandSequence s.params i) a s) := by
  rcases perform_cases (commandSequence s.params i) a s with
    ⟨used, h⟩ | ⟨can, silent, h⟩ | ⟨can, e, b, answered, h⟩ | ⟨can, w, b, p, answered, rfl, clear, h⟩ |
    ⟨can, w, b, answered, shown, h⟩
  · simp only [canTransact, not_forall, Nat.not_lt] at used
    obtain ⟨p, rfl, used⟩ := used
    exact h ▸ .timesOut at_mu used
  · exact h ▸ .waits (dueRequest_eq at_mu can) silent
  · exact h ▸ .fails (dueRequest_eq at_mu can) answered
  · exact h ▸ .pollsOn at_mu (can p rfl) answered clear
  · rcases next : (commandSequence s.params i).actions[s.mu + 1]? with _ | a'
    · rw [h, advance_eq_finishCommand next]
      exact .ends at_mu next can answered shown
    · rw [h, advance_eq_afterAction next]
      exact .moves at_mu next can answered shown

/-- The inversion of one step of a command. -/
theorem exec_outcome {i : Instr} {s s' : State} (h : exec i s = .next s') : StepOutcome i s s' := by
  rw [exec_eq_runSequence] at h
  rcases runSequence_next h with ⟨a, at_mu, rfl⟩ | ⟨none_at_mu, start, rfl⟩
  · exact perform_outcome at_mu
  · exact .endsAtOnce none_at_mu start

/-! ### What every outcome leaves, and the one transaction it can make -/

section
variable {i : Instr} {s s' : State}

/-- A poll's read is the request due at it. -/
theorem dueRequest_poll {p : StatusBit} (at_mu : (commandSequence s.params i).actions[s.mu]? = some (.poll p))
    (few : s.pollCount < s.params.pollLimit) : dueRequest i s = some (.read dhcsrAddr) :=
  dueRequest_eq at_mu fun _ _ => few

theorem StepOutcome.cmd (h : StepOutcome i s s') : s'.cmd = s.cmd := by
  cases h <;> simp [State.afterAction]

theorem StepOutcome.arg (h : StepOutcome i s s') : s'.arg = s.arg := by
  cases h <;> simp [State.afterAction]

theorem StepOutcome.params (h : StepOutcome i s s') : s'.params = s.params := by
  cases h <;> simp [State.afterAction]

theorem StepOutcome.cmdPort (h : StepOutcome i s s') : s'.cmdPort = s.cmdPort := by
  cases h <;> simp [State.afterAction]

theorem StepOutcome.resetReq (h : StepOutcome i s s') : s'.resetReq = s.resetReq := by
  cases h <;> simp [State.afterAction]

theorem StepOutcome.runningInstr (h : StepOutcome i s s') : runningInstr s' = runningInstr s := by
  rw [Machine.runningInstr, Machine.runningInstr, h.cmd, h.arg]

/-- Only an action that latches its word changes `latch`. -/
theorem absorbed_latch {a : BusAction} (noLatch : ∀ addr, a ≠ .readLatch addr) (w : Word) (s : State) :
    (absorbed a w s).latch = s.latch := by
  cases a with
  | readLatch addr => exact absurd rfl (noLatch addr)
  | write addr v => rfl
  | read addr => rfl
  | poll p => rfl

/-- BPUNITS alone latches a word (R180). -/
theorem not_readLatch_of_mem {p : Params} {a : BusAction} (other : i ≠ .bpunits)
    (mem : a ∈ (commandSequence p i).actions) (addr : Word) : a ≠ .readLatch addr := by
  rintro rfl
  cases i with
  | bpunits => exact other rfl
  | halt | run | step | waith | rdreg | wrreg | bpen | setbp | enbp | disbp | basicreg =>
    revert mem
    simp [commandSequence, haltSequence, runCommandSequence, stepSequence, waithSequence, rdregSequence,
      wrregSequence, bpenSequence, setbpSequence, unsupportedSequence, basicregSequence, readCoreActions]

theorem StepOutcome.latch (h : StepOutcome i s s') (other : i ≠ .bpunits) : s'.latch = s.latch := by
  cases h with
  | moves at_mu | ends at_mu =>
    simpa [State.afterAction] using
      absorbed_latch (not_readLatch_of_mem other (List.mem_of_getElem? at_mu)) _ s
  | timesOut | waits | fails | pollsOn | endsAtOnce => simp

/-- While the command goes on, the response registers stay. -/
theorem StepOutcome.response (h : StepOutcome i s s') (goesOn : s'.phase = .busy) :
    s'.respValid = s.respValid ∧ s'.respStatus = s.respStatus ∧ s'.respData = s.respData ∧ s'.respErr = s.respErr := by
  cases h with
  | waits | pollsOn | moves => simp [State.afterAction]
  | timesOut | fails => cases goesOn
  | ends | endsAtOnce => exact absurd goesOn (finishCommand_phase_ne_busy _ _ _)

/-- The bus sees no transaction, or the one that is due. -/
theorem StepOutcome.transaction (h : StepOutcome i s s') :
    (s'.trace = s.trace ∧ s'.bus = s.bus) ∨
    ∃ r a, dueRequest i s = some r ∧ s.bus.answer r = some (a, s'.bus) ∧ s'.trace = s.trace ++ [⟨r, a⟩] ∧
      s'.outstanding = none := by
  cases h with
  | timesOut | waits | endsAtOnce => exact .inl (by simp)
  | fails due answered => exact .inr ⟨_, _, due, answered, rfl, rfl⟩
  | pollsOn at_mu few answered => exact .inr ⟨_, _, dueRequest_poll at_mu few, answered, rfl, rfl⟩
  | moves at_mu next can answered =>
    exact .inr ⟨_, _, dueRequest_eq at_mu can, answered, by simp [State.afterAction], rfl⟩
  | ends at_mu last can answered =>
    exact .inr ⟨_, _, dueRequest_eq at_mu can, by simpa [State.afterAction] using answered,
      by simp [State.afterAction], by simp [State.afterAction]⟩

end

/-- Settles O24: the frame of each outcome of a step. -/
theorem execFrame : Obligations.ExecFrame := by
  intro i s s' executed
  have h := exec_outcome executed
  exact ⟨h.cmd, h.arg, h.params, h.cmdPort, h.resetReq, h.latch, fun _ => h.response, h.transaction⟩

/-- Settles O25: the rule of an error answer. -/
theorem transportErrorIsForwarded : Obligations.TransportErrorIsForwarded :=
  fun _ _ _ _ _ => exec_fails

/-- Settles O27: `mu` changes only with an action that is done, and then the count is the one the next starts with. -/
theorem everyPollStartsFromZero : Obligations.EveryPollStartsFromZero := by
  refine ⟨fun w => ⟨test_regrdy w, test_halt w⟩, fun _ _ => rfl, fun i s s' p executed moved on_poll => ?_⟩
  have h := exec_outcome executed
  rw [h.params] at on_poll
  cases h with
  | timesOut | waits | fails | pollsOn => exact absurd rfl moved
  | endsAtOnce => exact absurd (finishCommand_mu _ _ _) moved
  | moves _ next =>
    cases next.symm.trans on_poll
    rfl
  | ends _ last =>
    rw [finishCommand_mu] at on_poll
    exact absurd (last.symm.trans on_poll) nofun

end Sys2Proof.Machine
end

section
/-!
Steps of the block (spec/30_encoding.md R91, R97, R98; 70_reset_and_hazards.md R230, R246): acceptance, reset, FATAL,
waiting, and how a command that fails ends (60_exceptions.md R205).
-/

namespace Sys2Proof.Machine

/-! ### One step, by what the block is doing -/

section
variable {i : Instr} {s : State}

theorem step_of_reset (reset : s.resetReq = true) : step s = .next (blockReset s) := by
  rw [step, if_pos reset]

theorem step_of_fatal (noReset : s.resetReq = false) (fatal : s.phase = .fatal) : step s = .next s := by
  simp [step, noReset, fatal]

theorem step_of_idle (noReset : s.resetReq = false) (idle : s.phase = .idle) : step s = .next (idleStep s) := by
  simp [step, noReset, idle]

theorem step_of_running (run : s.Running i) : step s = exec i s := by
  obtain ⟨noReset, busy, decoded⟩ := run
  simp [step, noReset, busy, decoded]

theorem step_of_illegal (noReset : s.resetReq = false) (busy : s.phase = .busy) {e : DecodeError}
    (illegal : runningInstr s = .error e) : step s = .next (raiseIllegal s) := by
  simp [step, noReset, busy, illegal]

theorem idleStep_of_presented {c : Command} (presented : s.cmdPort = some c) :
    idleStep s = accept c { s with cmdPort := none } := by
  rw [idleStep, presented]

theorem idleStep_of_free (free : s.cmdPort = none) : idleStep s = s := by
  rw [idleStep, free]

end

/-- Settles O15: the branch of `step` for a running command. -/
theorem stepRunsTheDecodedCommand : Obligations.StepRunsTheDecodedCommand :=
  fun _ _ noReset busy decoded => step_of_running ⟨noReset, busy, decoded⟩

/-- Settles O16: a word that no row selects decodes to an error. -/
theorem illegalWordEndsWithIllegal : Obligations.IllegalWordEndsWithIllegal := by
  intro s noReset busy unselected
  obtain ⟨e, illegal⟩ : ∃ e, runningInstr s = .error e := ⟨_, decode_eq_error_iff.mpr ⟨unselected, rfl⟩⟩
  exact step_of_illegal noReset busy illegal

/-- Settles O17: the two cases of a step in IDLE. -/
theorem idleAcceptsThePresentedCommand : Obligations.IdleAcceptsThePresentedCommand := by
  intro s noReset idle
  refine ⟨fun free => ?_, fun c presented => ?_⟩
  · rw [step_of_idle noReset idle, idleStep_of_free free]
  · rw [step_of_idle noReset idle, idleStep_of_presented presented]
    rfl

/-- Settles O18: outside IDLE a step is one of a command, of an illegal word, or none at all. -/
theorem noCommandIsAcceptedUnlessIdle : Obligations.NoCommandIsAcceptedUnlessIdle := by
  intro s s' noReset notIdle stepped
  rcases step_cases s with ⟨reset, -⟩ | ⟨-, -, h⟩ | ⟨-, idle, -⟩ | ⟨-, -, i, -, h⟩ | ⟨-, -, e, -, h⟩
  · exact absurd (noReset.symm.trans reset) nofun
  · cases h.symm.trans stepped
    exact ⟨rfl, rfl, rfl⟩
  · exact absurd idle notIdle
  · have outcome := exec_outcome (h.symm.trans stepped)
    exact ⟨outcome.cmd, outcome.arg, outcome.cmdPort⟩
  · cases h.symm.trans stepped
    exact ⟨rfl, rfl, rfl⟩

/-- All a step can do outside BUSY without a reset: nothing, or the acceptance of a command. -/
theorem step_of_not_busy {s s' : State} (noReset : s.resetReq = false) (notBusy : s.phase ≠ .busy)
    (stepped : step s = .next s') : s' = s ∨ ∃ c, s' = accept c { s with cmdPort := none } := by
  rcases step_cases s with ⟨reset, -⟩ | ⟨-, -, h⟩ | ⟨-, -, h⟩ | ⟨-, busy, -⟩ | ⟨-, busy, -⟩
  · exact absurd (noReset.symm.trans reset) nofun
  · cases h.symm.trans stepped
    exact .inl rfl
  · cases h.symm.trans stepped
    rcases idleStep_cases s with ⟨-, waits⟩ | ⟨c, -, accepts⟩
    · exact .inl waits
    · exact .inr ⟨c, accepts⟩
  · exact absurd busy notBusy
  · exact absurd busy notBusy

/-- Settles O19: acceptance clears `resp_valid` and no other register of the response. -/
theorem responseStaysUntilTheNextCommand : Obligations.ResponseStaysUntilTheNextCommand := by
  intro s s' noReset notBusy stepped
  rcases step_of_not_busy noReset notBusy stepped with rfl | ⟨c, rfl⟩
  · exact ⟨rfl, rfl, rfl, .inl ⟨rfl, rfl⟩⟩
  · exact ⟨rfl, rfl, rfl, .inr ⟨rfl, rfl⟩⟩

/-- Settles O20: the values of a reset, and those of the reset state. -/
theorem resetValues : Obligations.ResetValues :=
  ⟨fun _ => step_of_reset, rfl, rfl, rfl, rfl, rfl, rfl, rfl, rfl, rfl, rfl, rfl⟩

/-- Settles O23: acceptance overwrites every register but the response. -/
theorem onlyTheResponseOutlivesACommand : Obligations.OnlyTheResponseOutlivesACommand := by
  intro s t noReset noReset' idle idle' presented port params bus trace status data err
  obtain ⟨c, presented⟩ := Option.ne_none_iff_exists'.mp presented
  rw [step_of_idle noReset idle, step_of_idle noReset' idle', idleStep_of_presented presented,
    idleStep_of_presented (port ▸ presented)]
  simp only [accept, params, bus, trace, status, data, err, noReset, noReset']

/-! ### Many steps -/

section
variable {s t u : State} {m n : Nat}

theorem runSteps_succ (stepped : step s = .next t) (n : Nat) : runSteps (n + 1) s = runSteps n t := by
  have stepped : Sys2Proof.core.step s = .next t := stepped
  simp only [runSteps, Host.Core.run, stepped]
  rfl

/-- Several steps that answer a state begin with one that does. -/
theorem exists_step_of_runSteps (h : runSteps (n + 1) s = .next u) :
    ∃ t, step s = .next t ∧ runSteps n t = .next u := by
  rcases stepped : Sys2Proof.core.step s with t | r | r
  · exact ⟨t, stepped, runSteps_succ stepped n ▸ h⟩
  all_goals
    simp only [runSteps, Host.Core.run, stepped] at h
    cases h

theorem runSteps_one (stepped : step s = .next t) : runSteps 1 s = .next t :=
  runSteps_succ stepped 0

theorem runSteps_trans {l : Nat} (total : l = m + n) (first : runSteps m s = .next t)
    (rest : runSteps n t = .next u) : runSteps l s = .next u := by
  subst total
  induction m generalizing s with
  | zero =>
    cases first
    rwa [Nat.zero_add]
  | succ m ih =>
    obtain ⟨s', stepped, more⟩ := exists_step_of_runSteps first
    rw [Nat.succ_add, runSteps_succ stepped]
    exact ih more

/-- A state that a step does not change stays for any number of steps. -/
theorem runSteps_of_fixed (fixed : step s = .next s) : ∀ n, runSteps n s = .next s
  | 0 => rfl
  | n + 1 => (runSteps_succ fixed n).trans (runSteps_of_fixed fixed n)

end

/-- Settles O21: a step in FATAL changes nothing, and a reset leaves IDLE. -/
theorem fatalLastsUntilReset : Obligations.FatalLastsUntilReset := by
  intro s fatal
  refine ⟨fun noReset => runSteps_of_fixed (step_of_fatal noReset fatal), fun reset => ?_⟩
  exact ⟨blockReset s, step_of_reset reset, rfl⟩

/-- The due request does not depend on what is in flight. -/
theorem dueRequest_awaitAnswer (i : Instr) (r : BusRequest) (s : State) :
    dueRequest i (awaitAnswer r s) = dueRequest i s := rfl

/-- Settles O22: the first step sets `outstanding`, and every later one sets it to the same request. -/
theorem unansweredRequestWaitsForever : Obligations.UnansweredRequestWaitsForever := by
  intro i s r run due silent n
  have first : step s = .next (awaitAnswer r s) := (step_of_running run).trans (exec_waits due silent)
  have again : step (awaitAnswer r s) = .next (awaitAnswer r s) :=
    (step_of_running (s := awaitAnswer r s) run).trans (exec_waits ((dueRequest_awaitAnswer i r s).trans due) silent)
  rw [runSteps_succ first]
  exact runSteps_of_fixed again n

/-! ### How a command that fails ends (R205) -/

/-- Outside BUSY a step makes no transaction. -/
theorem step_trace_of_not_busy {s s' : State} (notBusy : s.phase ≠ .busy) (stepped : step s = .next s') :
    s'.trace = s.trace := by
  rcases reset : s.resetReq with _ | _
  · rcases step_of_not_busy reset notBusy stepped with rfl | ⟨c, rfl⟩ <;> rfl
  · cases (step_of_reset reset).symm.trans stepped
    rfl

theorem code_eq_transport_iff (st : Status) : st.code = Status.code .transport ↔ st = .transport := by
  cases st <;> decide

theorem code_eq_unsupported_iff (st : Status) : st.code = Status.code .unsupported ↔ st = .unsupported := by
  cases st <;> decide

/-- The command has ended as `complete(status, 0, err)` says for a status other than OK: FATAL exactly for UNSUPPORTED
under the parameter. -/
def State.Failed (s : State) : Prop :=
  s.respValid = true ∧ s.respData = 0#32 ∧ (s.respErr.isSome = true ↔ s.respStatus = Status.code .transport) ∧
    (s.phase = .fatal ↔ s.respStatus = Status.code .unsupported ∧ s.params.unsupportedFatal = true)

theorem failed_raise {st : Status} {e : Option TransportError} (s : State) (supported : st ≠ .unsupported)
    (forwarded : e.isSome = true ↔ st = .transport) : (raise st e s).Failed := by
  refine ⟨rfl, rfl, forwarded.trans (code_eq_transport_iff st).symm, nofun, fun ⟨unsupported, _⟩ => ?_⟩
  exact absurd ((code_eq_unsupported_iff st).mp unsupported) supported

theorem failed_raiseUnsupported (s : State) : (raiseUnsupported s).Failed := by
  simp [State.Failed, Status.code]

theorem failed_finishCommand {f : Finish} {v : Word} {s : State}
    (notOk : (finishCommand f v s).respStatus ≠ Status.code .ok) : (finishCommand f v s).Failed := by
  rcases finishCommand_cases f v s with ⟨d, h⟩ | ⟨-, h⟩
  · rw [h] at notOk
    exact absurd rfl notOk
  · rw [h]
    exact failed_raiseUnsupported s

theorem StepOutcome.failed {i : Instr} {s s' : State} (h : StepOutcome i s s') (busy : s.phase = .busy)
    (ended : s'.phase ≠ .busy) (notOk : s'.respStatus ≠ Status.code .ok) : s'.Failed := by
  cases h with
  | timesOut => exact failed_raise s (by decide) (by decide)
  | fails => exact failed_raise _ (by decide) (by simp)
  | waits | pollsOn => exact absurd busy ended
  | moves => exact absurd busy (by simpa [State.afterAction] using ended)
  | ends | endsAtOnce => exact failed_finishCommand notOk

theorem StepOutcome.trace_grows {i : Instr} {s s' : State} (h : StepOutcome i s s') : s.trace <+: s'.trace := by
  rcases h.transaction with ⟨same, -⟩ | ⟨r, a, -, -, longer, -⟩
  · exact ⟨[], by rw [same, List.append_nil]⟩
  · exact ⟨[⟨r, a⟩], longer.symm⟩

/-- Settles O26: every end with a status other than OK is a `raise`, and a step outside BUSY makes no transaction. -/
theorem failureIsPrecise : Obligations.FailureIsPrecise := by
  intro s s' noReset busy stepped ended notOk
  have failed : s'.Failed ∧ s.trace <+: s'.trace ∧ s'.params = s.params := by
    rcases step_cases s with ⟨reset, -⟩ | ⟨-, fatal, -⟩ | ⟨-, idle, -⟩ | ⟨-, -, i, -, h⟩ | ⟨-, -, e, -, h⟩
    · exact absurd (noReset.symm.trans reset) nofun
    · exact absurd (busy.symm.trans fatal) nofun
    · exact absurd (busy.symm.trans idle) nofun
    · have outcome := exec_outcome (h.symm.trans stepped)
      exact ⟨outcome.failed busy ended notOk, outcome.trace_grows, outcome.params⟩
    · cases h.symm.trans stepped
      exact ⟨failed_raise s (by decide) (by decide), ⟨[], List.append_nil _⟩, rfl⟩
  obtain ⟨⟨valid, data, err, fatal⟩, longer, params⟩ := failed
  exact ⟨valid, data, err, params ▸ fatal, longer, fun s'' => step_trace_of_not_busy ended⟩

end Sys2Proof.Machine
end

section
/-!
The invariant of Safety.lean, clause by clause: the response registers (spec/10_state.md R24), the phase (30_encoding.md
R91, 43_breakpoint.md R186), the position (10_state.md R21), the poll count (R20), the request in flight (20_memory.md
R68), the address map (R72), and the host's answer (60_exceptions.md R217).
-/

namespace Sys2Proof.Machine

/-! ### The response registers and the phase -/

theorem code_le (st : Status) : st.code.toNat ≤ 4 := by
  cases st <;> decide

theorem responseConsistent_complete {st : Status} {d : Word} {e : Option TransportError} (s : State)
    (noData : st ≠ .ok → d = 0#32) (forwarded : e.isSome = true ↔ st = .transport) :
    (complete st d e s).ResponseConsistent := by
  refine ⟨code_le st, fun notOk => noData ?_, forwarded.trans (code_eq_transport_iff st).symm⟩
  rintro rfl
  exact notOk rfl

theorem responseConsistent_raiseUnsupported (s : State) : (raiseUnsupported s).ResponseConsistent :=
  responseConsistent_complete (e := none) s (fun _ => rfl) (by decide)

theorem responseConsistent_finishCommand (f : Finish) (v : Word) (s : State) :
    (finishCommand f v s).ResponseConsistent := by
  rcases finishCommand_cases f v s with ⟨d, h⟩ | ⟨-, h⟩
  · rw [h]
    exact responseConsistent_complete s (absurd rfl) (by decide)
  · rw [h]
    exact responseConsistent_raiseUnsupported s

theorem phaseConsistent_complete (st : Status) (d : Word) (e : Option TransportError) (s : State) :
    (complete st d e s).PhaseConsistent :=
  ⟨nofun, nofun⟩

theorem phaseConsistent_finishCommand (f : Finish) (v : Word) (s : State) :
    (finishCommand f v s).PhaseConsistent := by
  rcases finishCommand_cases f v s with ⟨d, h⟩ | ⟨-, h⟩
  · rw [h]
    exact phaseConsistent_complete _ _ _ _
  · rw [h]
    refine ⟨fun busy => absurd busy ?_, fun fatal => ⟨?_, rfl, rfl⟩⟩
    · rw [raiseUnsupported_phase]
      split <;> decide
    · simpa using fatal

section
variable {i : Instr} {s s' : State}

theorem StepOutcome.responseConsistent (h : StepOutcome i s s') (inv : s.ResponseConsistent) :
    s'.ResponseConsistent := by
  cases h with
  | timesOut => exact responseConsistent_complete s (fun _ => rfl) (by decide)
  | fails => exact responseConsistent_complete _ (fun _ => rfl) (by simp)
  | waits | pollsOn => exact inv
  | moves => simpa [State.ResponseConsistent, State.afterAction] using inv
  | ends | endsAtOnce => exact responseConsistent_finishCommand _ _ _

theorem StepOutcome.phaseConsistent (h : StepOutcome i s s') (inv : s.PhaseConsistent) : s'.PhaseConsistent := by
  cases h with
  | timesOut | fails => exact phaseConsistent_complete _ _ _ _
  | waits | pollsOn => exact inv
  | moves => simpa [State.PhaseConsistent, State.afterAction] using inv
  | ends | endsAtOnce => exact phaseConsistent_finishCommand _ _ _

/-! ### The position and the poll count -/

theorem positionBound_of_running (decoded : runningInstr s = .ok i) :
    s.positionBound = max 1 (commandSequence s.params i).actions.length := by
  rw [State.positionBound, decoded]

theorem StepOutcome.positionInRange (h : StepOutcome i s s') (decoded : Machine.runningInstr s = .ok i)
    (inv : s.PositionInRange) : s'.PositionInRange := by
  have bound : s'.positionBound = s.positionBound := by
    rw [positionBound_of_running decoded, positionBound_of_running (h.runningInstr.trans decoded), h.params]
  rw [State.PositionInRange, bound]
  cases h with
  | timesOut | fails => exact nofun
  | waits | pollsOn => exact inv
  | ends | endsAtOnce => exact fun goesOn => absurd goesOn (finishCommand_phase_ne_busy _ _ _)
  | moves _ next =>
    intro _
    have inside : s.mu + 1 < (commandSequence s.params i).actions.length :=
      (List.getElem?_eq_some_iff.mp next).1
    rw [positionBound_of_running decoded]
    exact lt_max_of_lt_right inside

/-- An action that is done has counted at most one read, and only one that the limit left. -/
theorem pollCount_absorbed_le {a : BusAction} (can : canTransact a s) (inv : s.PollBounded) (w : Word) :
    (absorbed a w s).pollCount ≤ s.params.pollLimit := by
  cases a with
  | poll p => exact can p rfl
  | write | read | readLatch => exact inv

theorem startCount_le (a : BusAction) (n : Nat) : startCount a n ≤ n := by
  cases a with
  | poll p => exact Nat.zero_le n
  | write | read | readLatch => exact Nat.le_refl n

theorem StepOutcome.pollBounded (h : StepOutcome i s s') (inv : s.PollBounded) : s'.PollBounded := by
  rw [State.PollBounded, h.params]
  cases h with
  | timesOut | fails | waits => exact inv
  | pollsOn _ few => exact few
  | moves _ _ can => exact (startCount_le _ _).trans (pollCount_absorbed_le can inv _)
  | ends _ _ can =>
    rw [finishCommand_pollCount]
    exact pollCount_absorbed_le can inv _
  | endsAtOnce => rwa [finishCommand_pollCount]

/-! ### The request in flight -/

theorem outstanding_eq_none_of_not_busy (inv : s.OutstandingDue) (notBusy : s.phase ≠ .busy) :
    s.outstanding = none := by
  rw [Option.eq_none_iff_forall_not_mem]
  exact fun r inFlight => notBusy (inv r inFlight).1

/-- Without a request due, none is in flight. -/
theorem outstanding_eq_none_of_not_due (inv : s.OutstandingDue) (decoded : runningInstr s = .ok i)
    (notDue : dueRequest i s = none) : s.outstanding = none := by
  rw [Option.eq_none_iff_forall_not_mem]
  intro r inFlight
  obtain ⟨-, j, decoded', due⟩ := inv r inFlight
  cases decoded.symm.trans decoded'
  exact absurd (notDue.symm.trans due) nofun

theorem outstandingDue_of_none (free : s.outstanding = none) : s.OutstandingDue :=
  fun _ inFlight => absurd (free.symm.trans inFlight) nofun

theorem dueRequest_eq_none_of_used {p : StatusBit}
    (at_mu : (commandSequence s.params i).actions[s.mu]? = some (.poll p)) (used : s.params.pollLimit ≤ s.pollCount) :
    dueRequest i s = none := by
  simp [dueRequest, at_mu, used]

theorem dueRequest_eq_none_of_no_action (none_at_mu : (commandSequence s.params i).actions[s.mu]? = none) :
    dueRequest i s = none := by
  rw [dueRequest, none_at_mu]

/-- After a step that does not wait, nothing is in flight. -/
theorem StepOutcome.waits_or_outstanding_eq_none (h : StepOutcome i s s') (decoded : Machine.runningInstr s = .ok i)
    (inv : s.OutstandingDue) :
    (∃ r, dueRequest i s = some r ∧ s' = awaitAnswer r s) ∨ s'.outstanding = none := by
  cases h with
  | waits due => exact .inl ⟨_, due, rfl⟩
  | timesOut at_mu used =>
    have free := outstanding_eq_none_of_not_due inv decoded (dueRequest_eq_none_of_used at_mu used)
    exact .inr free
  | endsAtOnce none_at_mu =>
    rw [finishCommand_outstanding]
    exact .inr (outstanding_eq_none_of_not_due inv decoded (dueRequest_eq_none_of_no_action none_at_mu))
  | ends =>
    rw [finishCommand_outstanding]
    exact .inr rfl
  | fails | pollsOn | moves => exact .inr rfl

theorem StepOutcome.outstandingDue (h : StepOutcome i s s') (busy : s.phase = .busy)
    (decoded : Machine.runningInstr s = .ok i) (inv : s.OutstandingDue) : s'.OutstandingDue := by
  rcases h.waits_or_outstanding_eq_none decoded inv with ⟨r, due, rfl⟩ | free
  · rintro r' ⟨⟩
    exact ⟨busy, i, decoded, due⟩
  · exact outstandingDue_of_none free

/-! ### The address map -/

/-- Every action of a command is one the address map allows (R72). -/
theorem inAddressMap_of_mem {p : Params} {a : BusAction} (mem : a ∈ (commandSequence p i).actions) :
    inAddressMap p.bpSourceCompat a.request = true := by
  revert a
  rw [← List.all_eq_true]
  cases i with
  | setbp address =>
    rcases compat : p.bpSourceCompat with _ | _ <;>
      simp [commandSequence, setbpSequence, setbpDest, compat, BusAction.request, inAddressMap]
  | halt | run | step | waith | bpunits | rdreg | wrreg | bpen | enbp | disbp | basicreg => rfl

theorem inAddressMap_of_dueRequest {r : BusRequest} (due : dueRequest i s = some r) :
    inAddressMap s.params.bpSourceCompat r = true := by
  obtain ⟨a, at_mu, -, rfl⟩ := dueRequest_some due
  exact inAddressMap_of_mem (List.mem_of_getElem? at_mu)

theorem StepOutcome.traceInMap (h : StepOutcome i s s') (inv : s.TraceInMap) : s'.TraceInMap := by
  rw [State.TraceInMap, h.params]
  rcases h.transaction with ⟨same, -⟩ | ⟨r, a, due, -, longer, -⟩
  · rw [same]
    exact inv
  · rw [longer]
    intro t mem
    rcases List.mem_append.mp mem with old | new
    · exact inv t old
    · rw [List.mem_singleton.mp new]
      exact inAddressMap_of_dueRequest due

/-! ### The host's answer -/

/-- A bus that has answered holds no answer of the host any more. -/
theorem givenInFlight_of_answered {r : BusRequest} {a : BusAnswer} (inv : s.GivenInFlight)
    (answered : s.bus.answer r = some (a, s'.bus)) : s'.GivenInFlight := by
  have taken := Bus.hasGiven_of_answer inv.1 answered
  exact ⟨Bus.givenOnce_of_not_hasGiven taken, fun given => absurd (taken.symm.trans given) nofun⟩

theorem StepOutcome.givenInFlight (h : StepOutcome i s s') (inv : s.GivenInFlight) : s'.GivenInFlight := by
  cases h with
  | timesOut => exact inv
  | waits => exact ⟨inv.1, fun _ => rfl⟩
  | endsAtOnce => simpa [State.GivenInFlight] using inv
  | fails _ answered | pollsOn _ _ answered | moves _ _ _ answered => exact givenInFlight_of_answered inv answered
  | ends _ _ _ answered =>
    exact givenInFlight_of_answered inv (by rw [finishCommand_bus]; exact answered)

/-! ### Every step -/

theorem StepOutcome.inv (h : StepOutcome i s s') (busy : s.phase = .busy) (decoded : Machine.runningInstr s = .ok i)
    (inv : s.Inv) : s'.Inv := by
  obtain ⟨response, phase, position, polls, due, map, given⟩ := inv
  exact ⟨h.responseConsistent response, h.phaseConsistent phase, h.positionInRange decoded position,
    h.pollBounded polls, h.outstandingDue busy decoded due, h.traceInMap map, h.givenInFlight given⟩

/-- With nothing in flight, no answer of the host waits. -/
theorem hasGiven_eq_false (inv : s.GivenInFlight) (free : s.outstanding = none) : s.bus.hasGiven = false := by
  rw [← Bool.not_eq_true]
  intro given
  have inFlight := inv.2 given
  rw [free] at inFlight
  cases inFlight

theorem blockReset_inv (inv : s.Inv) : (blockReset s).Inv := by
  obtain ⟨-, -, -, -, -, map, given⟩ := inv
  have free : (blockReset s).bus.hasGiven = false := by
    rw [blockReset_bus]
    split
    · exact Bus.hasGiven_discard given.1
    · next nothing => exact hasGiven_eq_false given (by simpa using nothing)
  have response : (blockReset s).ResponseConsistent := by simp [State.ResponseConsistent, Status.code]
  exact ⟨response, ⟨nofun, nofun⟩, nofun, Nat.zero_le _, nofun, map, Bus.givenOnce_of_not_hasGiven free,
    fun given => absurd (free.symm.trans given) nofun⟩

theorem accept_inv (c : Command) (idle : s.phase = .idle) (inv : s.Inv) :
    (accept c { s with cmdPort := none }).Inv := by
  obtain ⟨response, -, -, -, due, map, given⟩ := inv
  have free := hasGiven_eq_false given (outstanding_eq_none_of_not_busy due (by rw [idle]; decide))
  have start : 0 < (accept c { s with cmdPort := none }).positionBound := by
    rw [State.positionBound]
    split
    · exact lt_max_of_lt_left Nat.one_pos
    · exact Nat.one_pos
  exact ⟨response, ⟨fun _ => rfl, nofun⟩, fun _ => start, Nat.zero_le _, nofun, map, given.1,
    fun given => absurd (free.symm.trans given) nofun⟩

/-- An illegal word has no request due, so nothing is in flight when it ends. -/
theorem raiseIllegal_inv {e : DecodeError} (illegal : runningInstr s = .error e) (inv : s.Inv) :
    (raiseIllegal s).Inv := by
  obtain ⟨-, -, -, polls, due, map, given⟩ := inv
  have free : s.outstanding = none := by
    rw [Option.eq_none_iff_forall_not_mem]
    intro r inFlight
    obtain ⟨-, i, decoded, -⟩ := due r inFlight
    exact absurd (illegal.symm.trans decoded) nofun
  exact ⟨responseConsistent_complete s (fun _ => rfl) (by decide), phaseConsistent_complete _ _ _ _, nofun, polls,
    outstandingDue_of_none free, map, given⟩

end

/-- Settles O47: each kind of step keeps each clause. -/
theorem everyStepKeepsTheInvariant : Obligations.EveryStepKeepsTheInvariant := by
  intro s s' inv stepped
  rcases step_cases s with ⟨-, h⟩ | ⟨-, -, h⟩ | ⟨-, idle, h⟩ | ⟨-, busy, i, decoded, h⟩ | ⟨-, -, e, illegal, h⟩
  · cases h.symm.trans stepped
    exact blockReset_inv inv
  · cases h.symm.trans stepped
    exact inv
  · cases h.symm.trans stepped
    rcases idleStep_cases s with ⟨-, waits⟩ | ⟨c, -, accepts⟩
    · rwa [waits]
    · rw [accepts]
      exact accept_inv c idle inv
  · exact (exec_outcome (h.symm.trans stepped)).inv busy decoded inv
  · cases h.symm.trans stepped
    exact raiseIllegal_inv illegal inv

/-- Settles O48: nothing is held, in flight or recorded. -/
theorem resetMeetsTheInvariant : Obligations.ResetMeetsTheInvariant :=
  ⟨by decide, ⟨nofun, nofun⟩, nofun, Nat.zero_le _, nofun, nofun, rfl, nofun⟩

/-- Settles O49: of the fields the invariant speaks of, a move changes the bus alone, for a request in flight. -/
theorem hostMovesKeepTheInvariant : Obligations.HostMovesKeepTheInvariant := by
  intro m s s' inv moved
  obtain ⟨allowed, rfl⟩ := hostMove_eq_some.mp moved
  cases m with
  | present c => exact inv
  | reset => exact inv
  | answer a =>
    obtain ⟨response, phase, position, polls, due, map, -⟩ := inv
    simp only [HostMove.allowed, Bool.and_eq_true, Bool.not_eq_true'] at allowed
    obtain ⟨inFlight, notGiven⟩ := allowed
    have once : s.bus.discard.hasGiven = false := Bus.hasGiven_discard (Bus.givenOnce_of_not_hasGiven notGiven)
    exact ⟨response, phase, position, polls, due, map, by simpa [HostMove.apply, Bus.give, Bus.givenOnce] using once,
      fun _ => inFlight⟩

/-- Inside its sequence a command has an action to make, or it ends at once. -/
theorem exists_exec_next {i : Instr} {s : State} (inside : s.mu < max 1 (commandSequence s.params i).actions.length) :
    ∃ s', exec i s = .next s' := by
  rw [exec_eq_runSequence]
  rcases at_mu : (commandSequence s.params i).actions[s.mu]? with _ | a
  · have past := List.getElem?_eq_none_iff.mp at_mu
    have start : s.mu = 0 := by omega
    exact ⟨_, by rw [runSequence, at_mu]; exact if_pos start⟩
  · exact ⟨_, runSequence_at at_mu⟩

/-- Settles O50: the one fault needs a position past the end. -/
theorem theBlockNeverStops : Obligations.TheBlockNeverStops := by
  intro s inv
  rcases step_cases s with ⟨-, h⟩ | ⟨-, -, h⟩ | ⟨-, -, h⟩ | ⟨-, busy, i, decoded, h⟩ | ⟨-, -, e, -, h⟩
  case inr.inr.inr.inl =>
    obtain ⟨-, -, position, -⟩ := inv
    rw [h]
    exact exists_exec_next (positionBound_of_running decoded ▸ position busy)
  all_goals exact ⟨_, h⟩

end Sys2Proof.Machine
end

section
/-!
The commands, one step at a time (spec/41_core_reg_transfer.md R144, R145; 42_exec_control.md R162 to R165;
43_breakpoint.md R180 to R186): each command's sequence with its words written out, and the steps in which it ends.
-/

namespace Sys2Proof.Machine

/-! ### The sequences with their words written out -/

theorem dcrsr_false_eq (sel : BitVec 5) : dcrsr false sel = sel.setWidth 32 := BitVec.zero_or

theorem dcrsr_true_eq (sel : BitVec 5) : dcrsr true sel = 0x00010000#32 ||| sel.setWidth 32 := rfl

theorem bpCtrl_eq (compat enable : Bool) :
    bpCtrl (!compat) enable = if compat then bit enable else 2#32 ||| bit enable := by
  revert compat enable
  decide

theorem setbpDest_eq (compat : Bool) : setbpDest compat = if compat then 0xE0002000#32 else 0xE0002008#32 := rfl

theorem setbpWord_eq (compat : Bool) (a : Word) :
    setbpWord compat a = if compat then 0xC0000001#32 ||| (a &&& 0x1C000000#32) ||| 0x03FFFFFC#32
      else 0xC0000001#32 ||| (a &&& 0x1FFFFFFC#32) := by
  cases compat with
  | false => exact setbpWord_false_eq a
  | true => exact setbpWord_true_eq a

section
variable (p : Params)

theorem commandSequence_rdreg (reg : BitVec 5) : commandSequence p (.rdreg reg) =
    ⟨[.write 0xE000EDF4#32 (reg.setWidth 32), .poll .regrdy, .read 0xE000EDF8#32], .respondRead⟩ := by
  rw [← dcrsr_false_eq]
  rfl

theorem commandSequence_wrreg (reg : BitVec 5) (value : Word) : commandSequence p (.wrreg reg value) =
    ⟨[.write 0xE000EDF4#32 (0x00010000#32 ||| reg.setWidth 32), .poll .regrdy, .write 0xE000EDF8#32 value,
      .poll .regrdy], .respondWord 0#32⟩ := by
  rw [← dcrsr_true_eq]
  rfl

theorem commandSequence_halt : commandSequence p .halt =
    ⟨[.write 0xE000EDF0#32 0xA05F0003#32, .write 0xE000EDF4#32 0x0000000F#32, .poll .regrdy, .read 0xE000EDF8#32],
      .respondRead⟩ := by
  rw [← haltWord_eq]
  rfl

theorem commandSequence_run : commandSequence p .run =
    ⟨[.write 0xE000EDF0#32 0xA05F0000#32], .respondWord 0#32⟩ := by
  rw [← runWord_eq]
  rfl

theorem commandSequence_step : commandSequence p .step =
    ⟨[.write 0xE000EDF0#32 0xA05F000D#32, .poll .halt, .write 0xE000EDF4#32 0x0000000F#32, .poll .regrdy,
      .read 0xE000EDF8#32], .respondRead⟩ := by
  rw [← stepWord_eq]
  rfl

end

/-! ### One step at a given position -/

/-- An action answered with the word `w` lets the sequence go on: a poll only with a read left, and by a word that shows
its bit. -/
def BusAction.Succeeds (s : State) (w : Word) : BusAction → Prop
  | .poll p => s.pollCount < s.params.pollLimit ∧ p.test w = true
  | .write _ _ => True
  | .read _ => True
  | .readLatch _ => True

section
variable {i : Instr} {s : State} {q : Sequence} {k : Nat} {a : BusAction} {w : Word} {b : Bus} {f : Finish}

theorem canTransact_of_succeeds (done : a.Succeeds s w) : canTransact a s := by
  rintro p rfl
  exact done.1

theorem test_of_succeeds (done : a.Succeeds s w) : ∀ p, a = .poll p → p.test w = true := by
  rintro p rfl
  exact done.2

theorem exec_moves_at (seq : commandSequence s.params i = q) (mu : s.mu = k) {a' : BusAction}
    (at_mu : q.actions[k]? = some a) (next : q.actions[k + 1]? = some a') (done : a.Succeeds s w)
    (answered : s.bus.answer a.request = some (.ok w, b)) :
    exec i s = .next ((absorbed a w s).midway (k + 1) (startCount a' (absorbed a w s).pollCount)
      [⟨a.request, .ok w⟩] b) := by
  subst seq mu
  exact exec_moves at_mu next (canTransact_of_succeeds done) answered (test_of_succeeds done)

theorem exec_ends_at (seq : commandSequence s.params i = q) (mu : s.mu = k)
    (at_mu : q.actions[k]? = some a) (last : q.actions[k + 1]? = none) (done : a.Succeeds s w)
    (answered : s.bus.answer a.request = some (.ok w, b)) :
    exec i s = .next (finishCommand q.finish (carried a w)
      ((absorbed a w s).midway (k + 1) (absorbed a w s).pollCount [⟨a.request, .ok w⟩] b)) := by
  subst seq mu
  exact exec_ends at_mu last (canTransact_of_succeeds done) answered (test_of_succeeds done)

theorem exec_fails_at (seq : commandSequence s.params i = q) (mu : s.mu = k) {e : TransportError}
    (at_mu : q.actions[k]? = some a) (can : canTransact a s) (answered : s.bus.answer a.request = some (.err e, b)) :
    exec i s = .next (raiseTransport e (recordTransaction a.request (.err e) b s)) := by
  subst seq mu
  exact exec_fails (dueRequest_eq at_mu can) answered

theorem exec_empty (empty : commandSequence s.params i = ⟨[], f⟩) (mu : s.mu = 0) :
    exec i s = .next (finishCommand f 0#32 s) := by
  rw [exec_eq_runSequence, empty, runSequence_empty f s mu]

end

/-! ### The steps in which the commands end -/

/-- Settles O30: the data read is RDREG's last action. -/
theorem rdregCompletesWithTheDataWord : Obligations.RdregCompletesWithTheDataWord :=
  fun reg s _ _ mu => exec_ends_at (a := .read 0xE000EDF8#32) (commandSequence_rdreg s.params reg) mu rfl rfl trivial

/-- Settles O32: the second poll is WRREG's last action. -/
theorem wrregCompletesOnItsSecondPoll : Obligations.WrregCompletesOnItsSecondPoll :=
  fun reg value s _ _ mu few answered shown => exec_ends_at (a := .poll .regrdy)
    (commandSequence_wrreg s.params reg value) mu rfl rfl ⟨few, shown⟩ answered

/-- Settles O33: BASICREG has no action, and answers from its table of eight. -/
theorem basicregAnswersTheTable : Obligations.BasicregAnswersTheTable := by
  intro sel s mu
  have entry : [0, 1, 2, 3, 9, 15, 14, 13][sel.toNat]? = some (basicReg sel).toNat := by revert sel; decide
  exact ⟨basicReg sel, entry, exec_empty (f := .respondWord (basicReg sel)) rfl mu⟩

/-- Settles O34: RUN's one action, answered either way. -/
theorem runWritesOnceAndCompletes : Obligations.RunWritesOnceAndCompletes := by
  intro s b mu
  have seq := commandSequence_run s.params
  exact ⟨fun _ => exec_ends_at (a := .write 0xE000EDF0#32 0xA05F0000#32) seq mu rfl rfl trivial,
    fun _ => exec_fails_at (a := .write 0xE000EDF0#32 0xA05F0000#32) seq mu rfl nofun⟩

/-- Settles O35: the four outcomes of WAITH's poll. -/
theorem waithObservesTheHaltedBit : Obligations.WaithObservesTheHaltedBit := by
  intro s mu
  have at_mu : (commandSequence s.params .waith).actions[s.mu]? = some (.poll .halt) := by
    rw [mu]
    rfl
  refine ⟨exec_timesOut at_mu, fun few => ⟨fun w b answered shown => ?_, fun w b answered clear => ?_, fun e b => ?_⟩⟩
  · exact exec_ends_at (a := .poll .halt) rfl mu rfl rfl ⟨few, shown⟩ answered
  · exact exec_pollsOn at_mu few answered clear
  · exact exec_fails_at (a := .poll .halt) rfl mu rfl fun _ _ => few

/-- Settles O37: the data read is HALT's last action. -/
theorem haltCompletesWithTheWordRead : Obligations.HaltCompletesWithTheWordRead :=
  fun s _ _ mu => exec_ends_at (a := .read 0xE000EDF8#32) (commandSequence_halt s.params) mu rfl rfl trivial

/-- Settles O39: the data read is STEP's last action. -/
theorem stepCompletesWithTheWordRead : Obligations.StepCompletesWithTheWordRead :=
  fun s _ _ mu => exec_ends_at (a := .read 0xE000EDF8#32) (commandSequence_step s.params) mu rfl rfl trivial

theorem numCode_eq (w : Word) : numCode w = (w.extractLsb' 4 4).setWidth 32 :=
  fieldNumCode.get_eq_extractLsb' w

/-- Settles O41: the poll is BPUNITS' last action, and its answer the count field of the latch. -/
theorem bpunitsCompletesWithTheCount : Obligations.BpunitsCompletesWithTheCount := by
  intro s w b mu few answered shown
  rw [← numCode_eq]
  exact exec_ends_at (a := .poll .regrdy) rfl mu rfl rfl ⟨few, shown⟩ answered

/-- Settles O42: BPEN's write is followed by its poll. -/
theorem bpenWritesTheControlRegister : Obligations.BpenWritesTheControlRegister := by
  intro enable s a b w mu word answered
  rw [← bpCtrl_eq] at word
  subst word
  exact exec_moves_at (a := .write 0xE0002000#32 (bpCtrl (!s.params.bpSourceCompat) enable)) (a' := .poll .halt)
    rfl mu rfl rfl trivial answered

/-- Settles O43: SETBP's write is followed by its poll. -/
theorem setbpWritesTheComparator : Obligations.SetbpWritesTheComparator := by
  intro address s a b dest w mu place word answered
  rw [← setbpDest_eq] at place
  rw [← setbpWord_eq] at word
  subst place word
  exact exec_moves_at (a' := .poll .halt)
    (a := .write (setbpDest s.params.bpSourceCompat) (setbpWord s.params.bpSourceCompat address))
    rfl mu rfl rfl trivial answered

/-- Settles O44: the poll is the last action of both commands. -/
theorem bpenAndSetbpCompleteWhenHalted : Obligations.BpenAndSetbpCompleteWhenHalted := by
  intro s w b mu few answered shown
  refine ⟨_, rfl, fun enable => ?_, fun address => ?_⟩ <;>
    exact exec_ends_at (a := .poll .halt) rfl mu rfl rfl ⟨few, shown⟩ answered

/-- Settles O46: neither command has an action, and both end with UNSUPPORTED. -/
theorem enbpAndDisbpAreUnsupported : Obligations.EnbpAndDisbpAreUnsupported :=
  fun _ _ mu => ⟨_, rfl, exec_empty (f := .unsupported) rfl mu, exec_empty (f := .unsupported) rfl mu⟩

end Sys2Proof.Machine
end

section
/-!
The commands from their first step to each of their ends (spec/41_core_reg_transfer.md R140 to R144, 42_exec_control.md
R163, R165, 43_breakpoint.md R180, R182, R183). Every command but RUN and WAITH is made of transactions that a poll
follows; that piece is run once, as `TransactThenPoll`, and the commands are assembled from it.
-/

namespace Sys2Proof.Machine

/-! ### Runs that start or go on from the middle of a command -/

theorem running_midway {i : Instr} {s : State} (run : s.Running i) (mu n : Nat) (txs : List BusTransaction) (b : Bus) :
    (s.midway mu n txs b).Running i := run

theorem running_absorbed {i : Instr} {s : State} (run : s.Running i) (a : BusAction) (w : Word) :
    (absorbed a w s).Running i := by
  cases a <;> exact run

section
variable {s t : State} {mu n mu' n' l k m : Nat} {txs txs' : List BusTransaction} {b b' : Bus}

theorem midway_self (free : s.outstanding = none) : s.midway s.mu s.pollCount [] s.bus = s := by
  rw [State.midway, List.append_nil, ← free]

theorem runSteps_then_midway (total : l = k + m) (first : runSteps k s = .next (t.midway mu n txs b))
    (rest : runSteps m (t.midway mu n txs b) = .next ((t.midway mu n txs b).midway mu' n' txs' b')) :
    runSteps l s = .next (t.midway mu' n' (txs ++ txs') b') := by
  rw [runSteps_trans total first rest, midway_midway]

theorem runSteps_then_completed {st : Status} {d : Word} {e : Option TransportError}
    (total : l = k + m) (first : runSteps k s = .next (t.midway mu n txs b))
    (rest : runSteps m (t.midway mu n txs b) = .next (complete st d e ((t.midway mu n txs b).midway mu' n' txs' b'))) :
    runSteps l s = .next (complete st d e (t.midway mu' n' (txs ++ txs') b')) := by
  rw [runSteps_trans total first rest, midway_midway]

theorem runSteps_then_ended {answers : List BusAnswer} {st : Status} {d : Word} {e : Option TransportError}
    (total : l = k + m) (first : runSteps k s = .next (t.midway mu n txs b))
    (rest : runSteps m (t.midway mu n txs b) = .next ((t.midway mu n txs b).endedAfter mu' n' txs' answers st d e)) :
    runSteps l s = .next (t.endedAfter mu' n' (txs ++ txs') answers st d e) :=
  (runSteps_then_completed total first rest).trans (congrArg _ (complete_midway ..))

end

/-! ### One action of a running command -/

section
variable {i : Instr} {s : State} {q : Sequence} {k : Nat} {a : BusAction} {w : Word} {b : Bus}
  {e : TransportError} {rest : List BusAnswer}

theorem runSteps_one_moves (run : s.Running i) (seq : commandSequence s.params i = q) (mu : s.mu = k) {a' : BusAction}
    (at_mu : q.actions[k]? = some a) (next : q.actions[k + 1]? = some a') (done : a.Succeeds s w)
    (answered : s.bus.answer a.request = some (.ok w, b)) :
    runSteps 1 s = .next ((absorbed a w s).midway (k + 1) (startCount a' (absorbed a w s).pollCount)
      [⟨a.request, .ok w⟩] b) :=
  runSteps_one ((step_of_running run).trans (exec_moves_at seq mu at_mu next done answered))

theorem runSteps_one_ends (run : s.Running i) (seq : commandSequence s.params i = q) (mu : s.mu = k)
    (at_mu : q.actions[k]? = some a) (last : q.actions[k + 1]? = none) (done : a.Succeeds s w)
    (answered : s.bus.answer a.request = some (.ok w, b)) :
    runSteps 1 s = .next (finishCommand q.finish (carried a w)
      ((absorbed a w s).midway (k + 1) (absorbed a w s).pollCount [⟨a.request, .ok w⟩] b)) :=
  runSteps_one ((step_of_running run).trans (exec_ends_at seq mu at_mu last done answered))

theorem runSteps_one_fails (run : s.Running i) (seq : commandSequence s.params i = q) (mu : s.mu = k)
    (at_mu : q.actions[k]? = some a) (can : canTransact a s) (bus : s.bus = .script (.err e :: rest)) :
    runSteps 1 s =
      .next (s.endedAfter k s.pollCount [⟨a.request, .err e⟩] rest .transport 0#32 (some e)) := by
  have answered : s.bus.answer a.request = some (.err e, .script rest) := by rw [bus]; rfl
  rw [runSteps_one ((step_of_running run).trans (exec_fails_at seq mu at_mu can answered)), ← mu]
  rfl

end

/-! ### A poll of a running command (R140) -/

/-- The running command `i` is at the poll of `p` at position `k` of its sequence `q`, with nothing in flight and `n`
reads counted. -/
structure AtPoll (i : Instr) (s : State) (q : Sequence) (k : Nat) (p : StatusBit) (n : Nat) : Prop where
  run : s.Running i
  seq : commandSequence s.params i = q
  mu : s.mu = k
  at_mu : q.actions[k]? = some (.poll p)
  count : s.pollCount = n
  free : s.outstanding = none

namespace AtPoll

variable {i : Instr} {s : State} {q : Sequence} {k n : Nat} {p : StatusBit} {ws : List Word} {w : Word}
  {e : TransportError} {rest : List BusAnswer}

theorem midway (h : AtPoll i s q k p n) (n' : Nat) (txs : List BusTransaction) (b : Bus) :
    AtPoll i (s.midway k n' txs b) q k p n' :=
  ⟨running_midway h.run _ _ _ _, h.seq, rfl, h.at_mu, rfl, rfl⟩

/-- Reads that show the bit clear are counted, one per step, as long as the limit leaves reads. -/
theorem reads (h : AtPoll i s q k p n) (clear : AllClear p ws) (few : n + ws.length ≤ s.params.pollLimit)
    (bus : s.bus = .script (okAnswers ws ++ rest)) :
    runSteps ws.length s = .next (s.midway k (n + ws.length) (statusReads ws) (.script rest)) := by
  induction ws generalizing s n with
  | nil =>
    have still := midway_self h.free
    rw [h.mu, h.count, bus] at still
    exact congrArg _ still.symm
  | cons w ws ih =>
    obtain ⟨clear_w, clear_ws⟩ := List.forall_mem_cons.mp clear
    rw [List.length_cons] at few ⊢
    have at_mu : (commandSequence s.params i).actions[s.mu]? = some (.poll p) := by
      rw [h.seq, h.mu]
      exact h.at_mu
    have answered : s.bus.answer (.read dhcsrAddr) = some (.ok w, .script (okAnswers ws ++ rest)) := by
      rw [bus]
      rfl
    have read : step s = .next (s.midway k (n + 1) [⟨.read dhcsrAddr, .ok w⟩] (.script (okAnswers ws ++ rest))) := by
      rw [step_of_running h.run, exec_pollsOn at_mu (by rw [h.count]; omega) answered clear_w, h.mu, h.count]
    have count : n + (ws.length + 1) = n + 1 + ws.length := by omega
    rw [runSteps_succ read, ih (h.midway _ _ _) clear_ws (by rw [midway_params]; omega) rfl, midway_midway, count]
    rfl

/-- With the limit of reads used up, the next step ends the command with TIMEOUT. -/
theorem timesOut (h : AtPoll i s q k p 0) (clear : AllClear p ws) (all : ws.length = s.params.pollLimit)
    (bus : s.bus = .script (okAnswers ws ++ rest)) :
    runSteps (ws.length + 1) s = .next (s.endedAfter k ws.length (statusReads ws) rest .timeout 0#32 none) := by
  have first := h.reads clear (by omega) bus
  rw [Nat.zero_add] at first
  have ended : step (s.midway k ws.length (statusReads ws) (.script rest)) =
      .next (s.endedAfter k ws.length (statusReads ws) rest .timeout 0#32 none) := by
    have at_mu : (commandSequence s.params i).actions[k]? = some (.poll p) := h.seq ▸ h.at_mu
    rw [step_of_running (running_midway h.run _ _ _ _), exec_timesOut at_mu all.ge]
    rfl
  exact runSteps_trans rfl first (runSteps_one ended)

theorem fails (h : AtPoll i s q k p 0) (clear : AllClear p ws) (few : ws.length < s.params.pollLimit)
    (bus : s.bus = .script (okAnswers ws ++ .err e :: rest)) :
    runSteps (ws.length + 1) s = .next (s.endedAfter k ws.length
      (statusReads ws ++ [⟨.read 0xE000EDF0#32, .err e⟩]) rest .transport 0#32 (some e)) := by
  have first := h.reads clear (by omega) bus
  rw [Nat.zero_add] at first
  exact runSteps_then_ended rfl first
    (runSteps_one_fails (running_midway h.run _ _ _ _) h.seq rfl h.at_mu (fun _ _ => few) rfl)

/-- The read that shows the bit is the poll's last. -/
theorem shown (h : AtPoll i s q k p 0) (clear : AllClear p ws) (few : ws.length < s.params.pollLimit)
    (bus : s.bus = .script (okAnswers (ws ++ [w]) ++ rest)) :
    runSteps ws.length s = .next (s.midway k ws.length (statusReads ws) (.script (.ok w :: rest))) := by
  have first := h.reads (rest := .ok w :: rest) clear (by omega) (by simpa [okAnswers] using bus)
  rwa [Nat.zero_add] at first

theorem moves (h : AtPoll i s q k p 0) {a' : BusAction} (next : q.actions[k + 1]? = some a') (clear : AllClear p ws)
    (seen : p.test w = true) (few : ws.length < s.params.pollLimit)
    (bus : s.bus = .script (okAnswers (ws ++ [w]) ++ rest)) :
    runSteps (ws.length + 1) s =
      .next (s.midway (k + 1) (startCount a' (ws.length + 1)) (statusReads (ws ++ [w])) (.script rest)) := by
  have reads : statusReads (ws ++ [w]) = statusReads ws ++ [⟨.read dhcsrAddr, .ok w⟩] := List.map_append
  rw [reads]
  exact runSteps_then_midway rfl (h.shown clear few bus)
    (runSteps_one_moves (running_midway h.run _ _ _ _) h.seq rfl h.at_mu next ⟨few, seen⟩ rfl)

theorem ends (h : AtPoll i s q k p 0) (last : q.actions[k + 1]? = none) (clear : AllClear p ws)
    (seen : p.test w = true) (few : ws.length < s.params.pollLimit)
    (bus : s.bus = .script (okAnswers (ws ++ [w]) ++ rest)) :
    runSteps (ws.length + 1) s = .next (finishCommand q.finish 0#32
      (s.midway (k + 1) (ws.length + 1) (statusReads (ws ++ [w])) (.script rest))) := by
  have reads : statusReads (ws ++ [w]) = statusReads ws ++ [⟨.read dhcsrAddr, .ok w⟩] := List.map_append
  have ended := runSteps_one_ends (running_midway h.run k ws.length (statusReads ws) (.script (.ok w :: rest)))
    h.seq rfl h.at_mu last ⟨few, seen⟩ rfl
  rw [runSteps_trans rfl (h.shown clear few bus) ended, reads, ← midway_midway]
  rfl

end AtPoll

/-- Settles O28: the reads of a poll, and the step after the last that the limit leaves. -/
theorem pollMakesAtMostLimitReads : Obligations.PollMakesAtMostLimitReads := by
  intro i s p ws rest run at_mu count free clear bus
  have h : AtPoll i s (commandSequence s.params i) s.mu p 0 := ⟨run, rfl, rfl, at_mu, count, free⟩
  refine ⟨fun few => ?_, fun all => h.timesOut clear all bus⟩
  rw [h.reads clear (by omega) bus, Nat.zero_add, State.midway, free]

/-! ### A transaction that a poll follows -/

/-- The running command `i` is at position `k` of its sequence `q`, at the transaction `a`, which the poll of `p`
follows. -/
structure TransactThenPoll (i : Instr) (s : State) (q : Sequence) (k : Nat) (a : BusAction) (p : StatusBit) :
    Prop where
  run : s.Running i
  seq : commandSequence s.params i = q
  mu : s.mu = k
  first : q.actions[k]? = some a
  plain : ∀ p, a ≠ .poll p
  poll : q.actions[k + 1]? = some (.poll p)

namespace TransactThenPoll

variable {i : Instr} {s : State} {q : Sequence} {k : Nat} {a : BusAction} {p : StatusBit} {ws : List Word} {c w : Word}
  {e : TransportError} {rest : List BusAnswer}

theorem succeeds (h : TransactThenPoll i s q k a p) : a.Succeeds s c := by
  rcases a with _ | _ | _ | p
  case poll => exact absurd rfl (h.plain p)
  all_goals trivial

theorem fails (h : TransactThenPoll i s q k a p) (bus : s.bus = .script (.err e :: rest)) :
    runSteps 1 s = .next (s.endedAfter k s.pollCount [⟨a.request, .err e⟩] rest .transport 0#32 (some e)) :=
  runSteps_one_fails h.run h.seq h.mu h.first (fun p at_poll => absurd at_poll (h.plain p)) bus

/-- The state in which the poll starts. -/
def afterFirst (s : State) (k : Nat) (a : BusAction) (c : Word) (rest : List BusAnswer) : State :=
  (absorbed a c s).midway (k + 1) 0 [⟨a.request, .ok c⟩] (.script rest)

theorem atPoll (h : TransactThenPoll i s q k a p) (c : Word) (rest : List BusAnswer) :
    AtPoll i (afterFirst s k a c rest) q (k + 1) p 0 := by
  refine ⟨running_midway (running_absorbed h.run a c) _ _ _ _, ?_, rfl, h.poll, rfl, rfl⟩
  rw [afterFirst, midway_params, absorbed_params, h.seq]

theorem moves_to_poll (h : TransactThenPoll i s q k a p) (bus : s.bus = .script (.ok c :: rest)) :
    runSteps 1 s = .next (afterFirst s k a c rest) :=
  runSteps_one_moves h.run h.seq h.mu h.first h.poll h.succeeds (by rw [bus]; rfl)

theorem pollLimit_afterFirst : (afterFirst s k a c rest).params.pollLimit = s.params.pollLimit := by
  rw [afterFirst, midway_params, absorbed_params]

theorem pollFails (h : TransactThenPoll i s q k a p) (clear : AllClear p ws) (few : ws.length < s.params.pollLimit)
    (bus : s.bus = .script (.ok c :: (okAnswers ws ++ .err e :: rest))) :
    runSteps (ws.length + 2) s = .next ((absorbed a c s).endedAfter (k + 1) ws.length
      (⟨a.request, .ok c⟩ :: (statusReads ws ++ [⟨.read 0xE000EDF0#32, .err e⟩])) rest .transport 0#32 (some e)) :=
  runSteps_then_ended (by omega) (h.moves_to_poll bus)
    ((h.atPoll c _).fails clear (by rwa [pollLimit_afterFirst]) rfl)

theorem timesOut (h : TransactThenPoll i s q k a p) (clear : AllClear p ws) (all : ws.length = s.params.pollLimit)
    (bus : s.bus = .script (.ok c :: (okAnswers ws ++ rest))) :
    runSteps (ws.length + 2) s = .next ((absorbed a c s).endedAfter (k + 1) ws.length
      (⟨a.request, .ok c⟩ :: statusReads ws) rest .timeout 0#32 none) :=
  runSteps_then_ended (by omega) (h.moves_to_poll bus)
    ((h.atPoll c _).timesOut clear (all.trans pollLimit_afterFirst.symm) rfl)

theorem moves (h : TransactThenPoll i s q k a p) {a' : BusAction} (next : q.actions[k + 2]? = some a')
    (clear : AllClear p ws) (seen : p.test w = true) (few : ws.length < s.params.pollLimit)
    (bus : s.bus = .script (.ok c :: (okAnswers (ws ++ [w]) ++ rest))) :
    runSteps (ws.length + 2) s = .next ((absorbed a c s).midway (k + 2) (startCount a' (ws.length + 1))
      (⟨a.request, .ok c⟩ :: statusReads (ws ++ [w])) (.script rest)) :=
  runSteps_then_midway (by omega) (h.moves_to_poll bus)
    ((h.atPoll c _).moves next clear seen (by rwa [pollLimit_afterFirst]) rfl)

theorem ends (h : TransactThenPoll i s q k a p) (last : q.actions[k + 2]? = none)
    (clear : AllClear p ws) (seen : p.test w = true) (few : ws.length < s.params.pollLimit)
    (bus : s.bus = .script (.ok c :: (okAnswers (ws ++ [w]) ++ rest))) :
    runSteps (ws.length + 2) s = .next (finishCommand q.finish 0#32 ((absorbed a c s).midway (k + 2) (ws.length + 1)
      (⟨a.request, .ok c⟩ :: statusReads (ws ++ [w])) (.script rest))) := by
  have ended := (h.atPoll c (okAnswers (ws ++ [w]) ++ rest)).ends last clear seen (by rwa [pollLimit_afterFirst]) rfl
  rw [afterFirst, midway_midway] at ended
  exact runSteps_trans (by omega) (h.moves_to_poll bus) ended

end TransactThenPoll

end Sys2Proof.Machine
end

section
/-!
The statements about whole commands, each assembled from `TransactThenPoll` along the command's sequence.
-/

namespace Sys2Proof.Machine

/-- Settles O29: select and poll, then the data read. -/
theorem rdregRunsItsSequence : Obligations.RdregRunsItsSequence := by
  intro reg s run mu select data
  have seq := commandSequence_rdreg s.params reg
  have selected : TransactThenPoll (.rdreg reg) s _ 0 (.write 0xE000EDF4#32 (reg.setWidth 32)) .regrdy :=
    ⟨run, seq, mu, rfl, nofun, rfl⟩
  refine ⟨fun e rest => selected.fails, fun a ws e rest => selected.pollFails, fun a ws rest => selected.timesOut,
    fun a ws w e rest clear shown few bus => ?_, fun a ws w v rest clear shown few bus => ?_⟩
  · exact runSteps_then_ended rfl (selected.moves rfl clear shown few bus)
      (runSteps_one_fails (a := .read 0xE000EDF8#32) (running_midway run _ _ _ _) seq rfl rfl nofun rfl)
  · exact runSteps_then_ended rfl (selected.moves rfl clear shown few bus)
      (runSteps_one_ends (a := .read 0xE000EDF8#32) (running_midway run _ _ _ _) seq rfl rfl rfl trivial rfl)

/-- Settles O31: select and poll, then data and poll. -/
theorem wrregRunsItsSequence : Obligations.WrregRunsItsSequence := by
  intro reg value s run mu select data
  have seq := commandSequence_wrreg s.params reg value
  have selected : TransactThenPoll (.wrreg reg value) s _ 0
      (.write 0xE000EDF4#32 (0x00010000#32 ||| reg.setWidth 32)) .regrdy :=
    ⟨run, seq, mu, rfl, nofun, rfl⟩
  have written (n txs b) : TransactThenPoll (.wrreg reg value) (s.midway 2 n txs b) _ 2
      (.write 0xE000EDF8#32 value) .regrdy :=
    ⟨running_midway run _ _ _ _, seq, rfl, rfl, nofun, rfl⟩
  refine ⟨fun e rest => selected.fails, fun a ws e rest => selected.pollFails, fun a ws rest => selected.timesOut,
    fun a ws w e rest clear shown few bus => ?_, fun a ws w a' ws' e rest clear shown few clear' few' bus => ?_,
    fun a ws w a' ws' rest clear shown few clear' all bus => ?_,
    fun a ws w a' ws' w' rest clear shown few clear' shown' few' bus => ?_⟩
  · exact runSteps_then_ended rfl (selected.moves rfl clear shown few bus) ((written _ _ _).fails rfl)
  · exact runSteps_then_ended (by omega) (selected.moves rfl clear shown few bus)
      ((written _ _ _).pollFails clear' few' rfl)
  · exact runSteps_then_ended (by omega) (selected.moves rfl clear shown few bus)
      ((written _ _ _).timesOut clear' all rfl)
  · exact runSteps_then_ended (by omega) (selected.moves rfl clear shown few bus)
      ((written _ _ _).ends rfl clear' shown' few' rfl)

/-- Settles O36: the control write, then the PC is read as RDREG reads a register. -/
theorem haltRunsItsSequence : Obligations.HaltRunsItsSequence := by
  intro s run mu control select data
  have seq := commandSequence_halt s.params
  have controlled (c rest) (bus : s.bus = .script (.ok c :: rest)) :
      runSteps 1 s = .next (s.midway 1 s.pollCount [⟨control, .ok c⟩] (.script rest)) :=
    runSteps_one_moves (a := .write 0xE000EDF0#32 0xA05F0003#32) run seq mu rfl rfl trivial (by rw [bus]; rfl)
  have selected (n txs b) : TransactThenPoll .halt (s.midway 1 n txs b) _ 1
      (.write 0xE000EDF4#32 0x0000000F#32) .regrdy :=
    ⟨running_midway run _ _ _ _, seq, rfl, rfl, nofun, rfl⟩
  have ready (c a ws w rest) (clear : AllClear .regrdy ws) (shown : StatusBit.regrdy.test w = true)
      (few : ws.length < s.params.pollLimit)
      (bus : s.bus = .script (.ok c :: .ok a :: (okAnswers (ws ++ [w]) ++ rest))) :
      runSteps (ws.length + 3) s = .next (s.midway 3 (ws.length + 1)
        (⟨control, .ok c⟩ :: ⟨select, .ok a⟩ :: statusReads (ws ++ [w])) (.script rest)) :=
    runSteps_then_midway (by omega) (controlled _ _ bus) ((selected _ _ _).moves rfl clear shown few rfl)
  refine ⟨fun e rest => ?_, fun c e rest bus => ?_, fun c a ws e rest clear few bus => ?_,
    fun c a ws rest clear all bus => ?_, fun c a ws w e rest clear shown few bus => ?_,
    fun c a ws w v rest clear shown few bus => ?_⟩
  · exact runSteps_one_fails (a := .write 0xE000EDF0#32 0xA05F0003#32) run seq mu rfl nofun
  · exact runSteps_then_ended rfl (controlled _ _ bus) ((selected _ _ _).fails rfl)
  · exact runSteps_then_ended (by omega) (controlled _ _ bus) ((selected _ _ _).pollFails clear few rfl)
  · exact runSteps_then_ended (by omega) (controlled _ _ bus) ((selected _ _ _).timesOut clear all rfl)
  · exact runSteps_then_ended rfl (ready _ _ _ _ _ clear shown few bus)
      (runSteps_one_fails (a := .read 0xE000EDF8#32) (running_midway run _ _ _ _) seq rfl rfl nofun rfl)
  · exact runSteps_then_ended rfl (ready _ _ _ _ _ clear shown few bus)
      (runSteps_one_ends (a := .read 0xE000EDF8#32) (running_midway run _ _ _ _) seq rfl rfl rfl trivial rfl)

/-- Settles O38: control and poll, then select and poll, then the data read. -/
theorem stepRunsItsSequence : Obligations.StepRunsItsSequence := by
  intro s run mu control select data
  have seq := commandSequence_step s.params
  have controlled : TransactThenPoll .step s _ 0 (.write 0xE000EDF0#32 0xA05F000D#32) .halt :=
    ⟨run, seq, mu, rfl, nofun, rfl⟩
  have selected (n txs b) : TransactThenPoll .step (s.midway 2 n txs b) _ 2
      (.write 0xE000EDF4#32 0x0000000F#32) .regrdy :=
    ⟨running_midway run _ _ _ _, seq, rfl, rfl, nofun, rfl⟩
  refine ⟨fun c hs rest => controlled.timesOut, fun c hs h a ws rest clear shown few clear' all bus => ?_,
    fun c hs h a ws w v rest clear shown few clear' shown' few' bus => ?_⟩
  · exact runSteps_then_ended (by omega) (controlled.moves rfl clear shown few bus)
      ((selected _ _ _).timesOut clear' all rfl)
  · have ready : runSteps (hs.length + ws.length + 4) s = .next (s.midway 4 (ws.length + 1)
        (⟨control, .ok c⟩ :: (statusReads (hs ++ [h]) ++ ⟨select, .ok a⟩ :: statusReads (ws ++ [w])))
        (.script (.ok v :: rest))) :=
      runSteps_then_midway (by omega) (controlled.moves rfl clear shown few bus)
        ((selected _ _ _).moves rfl clear' shown' few' rfl)
    have ended := runSteps_then_ended (l := hs.length + ws.length + 5) (by omega) ready
      (runSteps_one_ends (a := .read 0xE000EDF8#32) (running_midway run _ _ _ _) seq rfl rfl rfl trivial rfl)
    rw [ended, List.cons_append, List.append_assoc]
    rfl

/-- Settles O40: the latched read and poll, which is BPUNITS whole. -/
theorem bpunitsRunsItsSequence : Obligations.BpunitsRunsItsSequence := by
  intro s run mu control
  have latched : TransactThenPoll .bpunits s _ 0 (.readLatch 0xE0002000#32) .regrdy :=
    ⟨run, rfl, mu, rfl, nofun, rfl⟩
  refine ⟨fun e rest => latched.fails, fun c ws e rest => latched.pollFails, fun c ws rest => latched.timesOut,
    fun c ws w rest clear shown few bus => ?_⟩
  rw [← numCode_eq]
  exact latched.ends rfl clear shown few bus

/-- Settles O45: for both commands the write and poll are all there is. -/
theorem breakpointWritesTimeOut : Obligations.BreakpointWritesTimeOut := by
  intro i s dest word a ws rest command run mu due clear all bus
  have written : TransactThenPoll i s (commandSequence s.params i) 0 (.write dest word) .halt := by
    rcases command with ⟨e, rfl⟩ | ⟨address, rfl⟩
    all_goals
      rw [dueRequest, mu] at due
      cases due
      exact ⟨run, rfl, mu, rfl, nofun, rfl⟩
  exact written.timesOut clear all bus

end Sys2Proof.Machine
end

section
/-!
The reference target (spec/20_memory.md R76 to R78; the spec's fixture, decision D17): what HALT, STEP and WRREG leave
in it, when its own answers drive the block.
-/

namespace Sys2Proof.Machine

/-! ### What the writes of the commands do to the target -/

namespace RefTarget

theorem write_control_keyless {w : Word} (keyless : w >>> 16 ≠ 0xA05F#32) (t : RefTarget) :
    t.write dhcsrAddr w = t := by
  have locked : dhcsrUnlocked w = false := by
    rw [dhcsrUnlocked, dbgkey_eq]
    exact beq_eq_false_iff_ne.mpr keyless
  rw [write_control, locked]
  rfl

/-- HALT's control word halts the target. -/
theorem write_haltWord (t : RefTarget) :
    t.write dhcsrAddr 0xA05F0003#32 = { t with debugen := true, maskints := false, halted := true } := by
  rw [write_control, if_pos (by decide)]
  rfl

/-- STEP's control word moves the PC of a halted target on by two. -/
theorem write_stepWord {t : RefTarget} (halted : t.halted = true) :
    t.write dhcsrAddr 0xA05F000D#32 =
      ({ t with debugen := true, maskints := true }).setCore 15#5 (t.getCore 15#5 + 2#32) := by
  rw [write_control, if_pos (by decide)]
  exact if_pos halted

theorem getLsbD_dcrsr (wnr : Bool) (sel : BitVec 5) : (dcrsr wnr sel).getLsbD 16 = wnr := by
  rw [← bit_eq_one (BitVec.getLsbD _ _), ← RegField.get_single]
  exact (congrArg (· == 1#32) (regwnr_dcrsr wnr sel)).trans (bit_eq_one wnr)

/-- The target with core register `sel` selected for reading: its value is in Register-Data. -/
def selectedToRead (t : RefTarget) (sel : BitVec 5) : RefTarget :=
  { t with dcrdr := t.getCore sel, pend := none, regrdy := true }

/-- The target with core register `sel` selected for writing: it waits for its data word. -/
def selectedToWrite (t : RefTarget) (sel : BitVec 5) : RefTarget :=
  { t with pend := some sel, regrdy := true }

theorem write_select_read (t : RefTarget) (sel : BitVec 5) :
    t.write dcrsrAddr (dcrsr false sel) = t.selectedToRead sel := by
  rw [write_select, select, getLsbD_dcrsr, regsel_dcrsr]
  rfl

theorem write_select_write (t : RefTarget) (sel : BitVec 5) :
    t.write dcrsrAddr (dcrsr true sel) = t.selectedToWrite sel := by
  rw [write_select, select, getLsbD_dcrsr, regsel_dcrsr]
  rfl

theorem write_data_pending {t : RefTarget} {sel : BitVec 5} (pending : t.pend = some sel) (w : Word) :
    t.write dcrdrAddr w = { t.setCore sel w with dcrdr := w, pend := none, regrdy := true } := by
  rw [write_data, data, pending]

end RefTarget

/-- Settles O51: without the key in the word itself, the write is not unlocked. -/
theorem keylessControlWritesAreIgnored : Obligations.KeylessControlWritesAreIgnored :=
  fun t _ keyless => t.write_control_keyless keyless

/-! ### Runs on the target -/

section
variable {i : Instr} {s : State} {q : Sequence} {k m n : Nat} {t : RefTarget} {txs : List BusTransaction}

/-- A command's first write, performed by the target. -/
theorem runSteps_first_write {addr v : Word} {a' : BusAction} (run : s.Running i)
    (seq : commandSequence s.params i = q) (mu : s.mu = 0) (first : q.actions[0]? = some (.write addr v))
    (next : q.actions[1]? = some a') (bus : s.bus = .reference t) :
    runSteps 1 s = .next (s.midway 1 (startCount a' s.pollCount) [⟨.write addr v, .ok 0#32⟩]
      (.reference (t.write addr v))) :=
  runSteps_one_moves run seq mu first next trivial (by rw [bus]; rfl)

/-- A later write, performed by the target. -/
theorem runSteps_then_write {addr v : Word} {a' : BusAction}
    (before : runSteps m s = .next (s.midway k n txs (.reference t))) (run : s.Running i)
    (seq : commandSequence s.params i = q) (at_mu : q.actions[k]? = some (.write addr v))
    (next : q.actions[k + 1]? = some a') :
    runSteps (m + 1) s = .next (s.midway (k + 1) (startCount a' n) (txs ++ [⟨.write addr v, .ok 0#32⟩])
      (.reference (t.write addr v))) :=
  runSteps_then_midway rfl before (runSteps_one_moves (running_midway run _ _ _ _) seq rfl at_mu next trivial rfl)

/-- A poll of a target that shows the bit succeeds with its first read. -/
theorem runSteps_then_poll {p : StatusBit} {a' : BusAction}
    (before : runSteps m s = .next (s.midway k 0 txs (.reference t))) (run : s.Running i)
    (seq : commandSequence s.params i = q) (at_mu : q.actions[k]? = some (.poll p))
    (next : q.actions[k + 1]? = some a') (limit : 0 < s.params.pollLimit) (shown : p.test (t.read dhcsrAddr) = true) :
    runSteps (m + 1) s = .next (s.midway (k + 1) (startCount a' 1)
      (txs ++ [⟨.read dhcsrAddr, .ok (t.read dhcsrAddr)⟩]) (.reference t)) :=
  runSteps_then_midway rfl before
    (runSteps_one_moves (running_midway run _ _ _ _) seq rfl at_mu next ⟨limit, shown⟩ rfl)

/-- The last action of a command, answered by the target with `Ok(w)`. -/
theorem runSteps_then_end {a : BusAction} {w : Word}
    (before : runSteps m s = .next (s.midway k n txs (.reference t))) (run : s.Running i)
    (seq : commandSequence s.params i = q) (at_mu : q.actions[k]? = some a) (last : q.actions[k + 1]? = none)
    (done : a.Succeeds (s.midway k n txs (.reference t)) w)
    (answered : (Bus.reference t).answer a.request = some (.ok w, .reference t)) :
    runSteps (m + 1) s = .next (finishCommand q.finish (carried a w)
      ((absorbed a w (s.midway k n txs (.reference t))).midway (k + 1)
        (absorbed a w (s.midway k n txs (.reference t))).pollCount [⟨a.request, .ok w⟩] (.reference t))) :=
  runSteps_trans rfl before (runSteps_one_ends (running_midway run _ _ _ _) seq rfl at_mu last done answered)

/-- `read_core(sel)` (R142) at the end of a command: the target answers the core register, and nothing but its transfer
registers changes. -/
theorem runSteps_then_readCore {sel : BitVec 5}
    (before : runSteps m s = .next (s.midway k n txs (.reference t))) (run : s.Running i)
    (seq : commandSequence s.params i = q) (tail : q.actions.drop k = readCoreActions sel)
    (finish : q.finish = .respondRead) (limit : 0 < s.params.pollLimit) :
    ∃ n' txs', txs'.length = txs.length + 3 ∧ runSteps (m + 3) s =
      .next (complete .ok (t.getCore sel) none (s.midway (k + 3) n' txs' (.reference (t.selectedToRead sel)))) := by
  have action (j : Nat) : q.actions[k + j]? = (readCoreActions sel)[j]? := by rw [← tail, List.getElem?_drop]
  have selected := runSteps_then_write before run seq (action 0) (action 1)
  rw [t.write_select_read] at selected
  have polled := runSteps_then_poll selected run seq (action 1) (action 2) limit
    (RefTarget.test_read_status (t.selectedToRead sel)).2
  have read : (Bus.reference (t.selectedToRead sel)).answer (.read dcrdrAddr) =
      some (.ok (t.getCore sel), .reference (t.selectedToRead sel)) := by
    rw [bus_reference_read, RefTarget.read_data]
    rfl
  have ended := runSteps_then_end (a := .read dcrdrAddr) polled run seq (action 2) (action 3) trivial read
  rw [finish, finishCommand, carried, absorbed, respond_eq, midway_midway] at ended
  exact ⟨_, _, by simp, ended⟩

end

/-- Settles O52: the control write halts the target, and its PC is read. -/
theorem haltOnTheReferenceTarget : Obligations.HaltOnTheReferenceTarget := by
  intro s t run mu limit bus
  have halted := runSteps_first_write run rfl mu rfl rfl bus
  rw [haltWord_eq, t.write_haltWord] at halted
  obtain ⟨n, txs, four, read⟩ := runSteps_then_readCore (sel := pcIndex) halted run rfl rfl rfl limit
  refine ⟨_, _, read, rfl, rfl, rfl, rfl, ?_, rfl, rfl⟩
  rw [complete_trace, midway_trace, List.length_append, four]
  rfl

/-- Settles O54: the control write moves the PC on, the target shows S_HALT, and its PC is read. -/
theorem stepOnTheReferenceTarget : Obligations.StepOnTheReferenceTarget := by
  intro s t run mu limit bus halted
  have stepped := runSteps_first_write run rfl mu rfl rfl bus
  rw [stepWord_eq, RefTarget.write_stepWord halted] at stepped
  have polled := runSteps_then_poll stepped run rfl rfl rfl limit ((RefTarget.test_read_status _).1.trans halted)
  obtain ⟨n, txs, -, read⟩ := runSteps_then_readCore (sel := pcIndex) polled run rfl rfl rfl limit
  refine ⟨_, _, read, rfl, rfl, rfl, ?_, halted, rfl, ?_, fun other differs => ?_⟩
  · exact RefTarget.getCore_setCore_same _ _ _
  · exact RefTarget.getCore_setCore_same _ _ _
  · exact (RefTarget.getCore_setCore _ _ _ _).trans (if_neg differs)

/-- Settles O53: the select names the register, and the data write sets it; the target is ready after each. -/
theorem wrregOnTheReferenceTarget : Obligations.WrregOnTheReferenceTarget := by
  intro reg value s t run mu limit bus
  have selected := runSteps_first_write run rfl mu rfl rfl bus
  rw [t.write_select_write] at selected
  have polled := runSteps_then_poll selected run rfl rfl rfl limit (RefTarget.test_read_status _).2
  have written := runSteps_then_write polled run rfl rfl rfl
  rw [RefTarget.write_data_pending rfl] at written
  have ended := runSteps_then_end written run rfl rfl rfl ⟨limit, (RefTarget.test_read_status _).2⟩
    (bus_reference_read _ _)
  refine ⟨_, _, ended, rfl, rfl, rfl, rfl, ?_, rfl, fun other differs => ?_⟩
  · exact RefTarget.getCore_setCore_same _ _ _
  · exact (RefTarget.getCore_setCore _ _ _ _).trans (if_neg differs)

end Sys2Proof.Machine
end

section
/-!
The host (spec/60_exceptions.md R217): when each of its moves is allowed, and that the block takes the answer it gives.
-/

namespace Sys2Proof.Machine

/-! ### The table of moves -/

section
variable {m : HostMove} {s : State}

theorem hostMove_of_allowed (allowed : m.allowed s = true) : hostMove m s = some (m.apply s) :=
  if_pos allowed

theorem hostMove_of_not_allowed (refused : ¬ m.allowed s = true) : hostMove m s = none :=
  if_neg refused

theorem allowed_present {c : Command} :
    (HostMove.present c).allowed s = true ↔ s.phase = .idle ∧ s.cmdPort = none := by
  simp [HostMove.allowed]

theorem allowed_answer {a : BusAnswer} :
    (HostMove.answer a).allowed s = true ↔ s.outstanding ≠ none ∧ s.bus.hasGiven = false := by
  simp [HostMove.allowed, Option.isSome_iff_ne_none]

end

/-- Settles O55: each move by its condition, and the response by `resp_valid`. -/
theorem hostMovesFollowTheTable : Obligations.HostMovesFollowTheTable := by
  intro s
  refine ⟨fun c idle free => hostMove_of_allowed (allowed_present.mpr ⟨idle, free⟩), fun c refused => ?_,
    fun a inFlight notGiven => hostMove_of_allowed (allowed_answer.mpr ⟨inFlight, notGiven⟩), fun a refused => ?_,
    hostMove_of_allowed rfl, fun valid => if_pos valid, fun invalid => if_neg (Bool.eq_false_iff.mp invalid)⟩
  · refine hostMove_of_not_allowed fun allowed => ?_
    obtain ⟨idle, free⟩ := allowed_present.mp allowed
    exact refused.elim (absurd idle) (absurd free)
  · refine hostMove_of_not_allowed fun allowed => ?_
    obtain ⟨inFlight, notGiven⟩ := allowed_answer.mp allowed
    exact refused.elim inFlight fun given => absurd (notGiven.symm.trans given) nofun

/-! ### The answer is taken -/

section
variable {i : Instr} {s s' : State} {r : BusRequest} {a : BusAnswer} {b : Bus}

theorem exists_exec_next_of_due (due : dueRequest i s = some r) : ∃ s', exec i s = .next s' := by
  obtain ⟨action, at_mu, -, -⟩ := dueRequest_some due
  exact ⟨_, (exec_eq_runSequence i s).trans (runSequence_at at_mu)⟩

/-- A due request that the bus answers is the step's transaction. -/
theorem StepOutcome.transaction_of_answered (h : StepOutcome i s s') (due : dueRequest i s = some r)
    (answered : s.bus.answer r = some (a, b)) :
    s'.trace = s.trace ++ [⟨r, a⟩] ∧ s'.outstanding = none ∧ s'.bus = b := by
  have only {r' a' b'} (due' : dueRequest i s = some r') (answered' : s.bus.answer r' = some (a', b')) :
      r' = r ∧ a' = a ∧ b' = b := by
    cases due.symm.trans due'
    cases answered.symm.trans answered'
    exact ⟨rfl, rfl, rfl⟩
  cases h with
  | timesOut at_mu used => exact absurd (due.symm.trans (dueRequest_eq_none_of_used at_mu used)) nofun
  | endsAtOnce none_at_mu => exact absurd (due.symm.trans (dueRequest_eq_none_of_no_action none_at_mu)) nofun
  | waits due' silent =>
    cases due.symm.trans due'
    exact absurd (answered.symm.trans silent) nofun
  | fails due' answered' =>
    obtain ⟨rfl, rfl, rfl⟩ := only due' answered'
    exact ⟨rfl, rfl, rfl⟩
  | pollsOn at_mu few answered' =>
    obtain ⟨rfl, rfl, rfl⟩ := only (dueRequest_poll at_mu few) answered'
    exact ⟨rfl, rfl, rfl⟩
  | moves at_mu _ can answered' | ends at_mu _ can answered' =>
    obtain ⟨rfl, rfl, rfl⟩ := only (dueRequest_eq at_mu can) answered'
    simp [State.afterAction]

end

/-- Settles O56: behind the port there is now the host's answer, so the next step's transaction has it. -/
theorem hostAnswerIsTaken : Obligations.HostAnswerIsTaken := by
  intro i s r a run due inFlight notGiven
  have moved : hostMove (.answer a) s = some { s with bus := s.bus.give a } :=
    hostMove_of_allowed (allowed_answer.mpr ⟨by simp [inFlight], notGiven⟩)
  have due' : dueRequest i { s with bus := s.bus.give a } = some r := due
  obtain ⟨s', executed⟩ := exists_exec_next_of_due due'
  obtain ⟨made, free, left⟩ := (exec_outcome executed).transaction_of_answered due' (s.bus.answer_give a r)
  exact ⟨_, s', moved, (step_of_running (s := { s with bus := s.bus.give a }) run).trans executed, made, free, left⟩

end Sys2Proof.Machine
end
